-- ==== Sys2Proof/Word.lean ====
section
/-! DEFINITION. The word types of the MIIO protocol engine: bytes, 32-bit words and 16-byte
blocks. -/

namespace Sys2Proof

/-- A byte (spec/00_scope.md R7). -/
abbrev Byte := BitVec 8

/-- A 32-bit register value, command word or data word (spec/10_state.md R24). -/
abbrev Word := BitVec 32

/-- A 16-byte value: TOKEN, KEY, IV, DIGEST (spec/10_state.md R36 to R39), a cipher block, an MD5
digest. Byte 0 is the first byte on the wire (spec/20_memory.md R62). -/
abbrev Block := Vector Byte 16

end Sys2Proof
end

