-- ==== Sys2Proof/Syntax.lean ====
section
/-! DEFINITION. The syntax of everything that a step can be about: the 13 commands of
spec/opcode_table.json (`Instr`), the accesses a host makes to the register window, the lines of a host
program (spec/30_encoding.md R95), and the turns the agents take. -/

namespace Sys2Proof

/-- The 13 commands (spec/30_encoding.md R91). A command has no operand field: it takes its operands from
fixed registers (R93). -/
inductive Instr where
  /-- NOP, OPC 0x00 (spec/43_sequence.md R220). -/
  | nop
  /-- MD5, OPC 0x01 (spec/40_md5.md R118). -/
  | md5
  /-- DERIVE, OPC 0x10 (spec/41_cipher.md R148). -/
  | derive
  /-- PAD, OPC 0x11 (spec/41_cipher.md R149). -/
  | pad
  /-- UNPAD, OPC 0x12 (spec/41_cipher.md R150). -/
  | unpad
  /-- ENC, OPC 0x13 (spec/41_cipher.md R151). -/
  | enc
  /-- DEC, OPC 0x14 (spec/41_cipher.md R152). -/
  | dec
  /-- FENC, OPC 0x20 (spec/42_frame.md R192). -/
  | fenc
  /-- FDEC, OPC 0x21 (spec/42_frame.md R193). -/
  | fdec
  /-- SENT, OPC 0x30 (spec/43_sequence.md R221). -/
  | sent
  /-- STRIP, OPC 0x31 (spec/43_sequence.md R222). -/
  | strip
  /-- SEAL, OPC 0x40 (spec/43_sequence.md R223). -/
  | sealFrame
  /-- OPEN, OPC 0x41 (spec/43_sequence.md R224). -/
  | openFrame
  deriving DecidableEq, Repr

/-- The width of a host access: 1, 2 or 4 bytes (spec/20_memory.md R61). -/
inductive Width where
  | w8
  | w16
  | w32
  deriving DecidableEq, Repr

/-- One access of a host to the register window (spec/20_memory.md R61, R63). The data of a write stands
on the low lanes: the byte at offset `A + j` is data bits `8j+7 .. 8j`. An offset is a natural number from the
engine's base address, so that a sum of offsets does not wrap (spec/00_scope.md R6); the register window takes
those below 2^17 (R5), and one past it is past DBUF too and is refused (R65; assumption log entry 10). -/
inductive Access where
  | read (w : Width) (off : Nat)
  | write (w : Width) (off : Nat) (data : Word)
  deriving DecidableEq, Repr

/-- How the host port answers an access (spec/20_memory.md R66). -/
inductive Answer where
  /-- A permitted read: its data on the low lanes, zero above them. -/
  | data (v : Word)
  /-- A permitted write (an ignored or a dropped one too). -/
  | written
  /-- The error response of a refused access. -/
  | busError
  deriving DecidableEq, Repr

/-- A line of a host program (spec/30_encoding.md R95). `cmd MNEMONIC` is a `wr` of the command word
(`Sys2Proof.Machine.cmdLine`). -/
inductive Line where
  /-- `wr32 / wr16 / wr8 OFF, VAL`. -/
  | wr (w : Width) (off : Nat) (val : Word)
  /-- `rd32 / rd16 / rd8 OFF -> NAME`. -/
  | rd (w : Width) (off : Nat) (name : String)
  /-- `label:`, a position in the program; it is no step. -/
  | label (name : String)
  /-- `bnz NAME, MASK, label`: branch if `NAME & MASK != 0`. -/
  | bnz (name : String) (mask : Word) (target : String)
  /-- `bz NAME, MASK, label`: branch if `NAME & MASK = 0`. -/
  | bz (name : String) (mask : Word) (target : String)
  deriving DecidableEq, Repr

/-- One turn of the interleaving (spec/10_state.md R21, spec/20_memory.md R71): which agent acts, and with
what. The order of the turns is the port's and the scheduler's (U9, U11). -/
inductive Turn where
  /-- The engine takes its step if a command is pending (R45). -/
  | engine
  /-- The host program executes its next line. -/
  | line
  /-- An access of any host agent arrives at the port. -/
  | access (a : Access)
  /-- The hardware reset input is asserted, or power returns (spec/70_reset_and_hazards.md R290,
  spec/60_exceptions.md R270). -/
  | reset
  deriving DecidableEq, Repr

end Sys2Proof
end

