-- ==== Sys2Proof/Decode.lean ====
section
/-! DEFINITION. The decoder of command words (spec/30_encoding.md R90 to R92, R94), total on all words
and rejecting by name, and the encoder written from the same table. -/

namespace Sys2Proof

/-- Why a word is no command (R92). Its engine step completes with ILLEGAL_CMD. -/
inductive Reject where
  /-- `RSV`, bits 31..8, is not 0. -/
  | reservedBits
  /-- `RSV = 0` and `OPC`, bits 7..0, is not in R91's table. -/
  | unassignedOpcode
  deriving DecidableEq, Repr

/-- The field `OPC`, bits 7..0 (R90). -/
def opcField (w : Word) : Byte := w.extractLsb' 0 8

/-- The field `RSV`, bits 31..8 (R90). -/
def rsvField (w : Word) : BitVec 24 := w.extractLsb' 8 24

/-- The command of an opcode (R91). -/
def decodeOpc (opc : Byte) : Except Reject Instr :=
  match opc.toNat with
  | 0x00 => .ok .nop
  | 0x01 => .ok .md5
  | 0x10 => .ok .derive
  | 0x11 => .ok .pad
  | 0x12 => .ok .unpad
  | 0x13 => .ok .enc
  | 0x14 => .ok .dec
  | 0x20 => .ok .fenc
  | 0x21 => .ok .fdec
  | 0x30 => .ok .sent
  | 0x31 => .ok .strip
  | 0x40 => .ok .sealFrame
  | 0x41 => .ok .openFrame
  | _ => .error .unassignedOpcode

/-- The command a word selects (R91), or why it is illegal (R92). -/
def decode (w : Word) : Except Reject Instr :=
  if rsvField w ≠ 0 then .error .reservedBits else decodeOpc (opcField w)

/-- The opcode of a command (R91). -/
def opcodeOf : Instr → Byte
  | .nop => 0x00
  | .md5 => 0x01
  | .derive => 0x10
  | .pad => 0x11
  | .unpad => 0x12
  | .enc => 0x13
  | .dec => 0x14
  | .fenc => 0x20
  | .fdec => 0x21
  | .sent => 0x30
  | .strip => 0x31
  | .sealFrame => 0x40
  | .openFrame => 0x41

/-- The command word of a command: `RSV = 0`, `OPC` its opcode (R90, R91). -/
def encode (i : Instr) : Word := (0 : BitVec 24) ++ opcodeOf i

/-- The command the decoder reads from an instruction whose bits are `w`, `nbits` of them given and the
others 0. A command word is one 32-bit number on bits 31..0 (spec/20_memory.md R61), so no bytes have to
be laid out. -/
def decodeTableWord (nbits w : Nat) : Option Instr :=
  match decode (BitVec.ofNat 32 (w % 2 ^ nbits)) with
  | .ok i => some i
  | .error _ => none

end Sys2Proof
end

