-- ==== Sys2Proof/Config.lean ====
section
/-! DEFINITION. What an implementation fixes (spec/00_scope.md R5), the constants of the spec, and the
one free value: the draw of the data buffer's contents at a reset. -/

namespace Sys2Proof

/-- `BLOCK`: the cipher and PKCS7 block size in bytes (R5). -/
abbrev blockBytes : Nat := 16

/-- `HDR_BYTES` and `BODY_OFF`: the frame header's size, and so the offset of the body in DBUF (R5). -/
abbrev bodyOffset : Nat := 32

/-- `SLOT_OFF`: the offset of the 16-byte checksum slot in a frame (R5). -/
abbrev slotOffset : Nat := 16

/-- `MIN_FRAME` (R5). -/
abbrev minFrame : Nat := 33

/-- `MAX_FRAME` (R5): the largest length the 16-bit length field holds. -/
abbrev maxFrame : Nat := 65535

/-- `MAGIC` (R5): its two bytes as they stand in a frame (spec/42_frame.md R190). -/
def magicBytes : List Byte := [0x21, 0x31]

/-- The constant of the ID register (spec/10_state.md R25). -/
def idValue : Word := 0x4D49494F

/-- What one implementation fixes: `DBUF_BYTES` is the OPEN parameter of R5, a power of two from 64 to
65536; it is held by its exponent, so that no illegal size can be written. -/
structure Params where
  /-- `DBUF_BYTES = 2 ^ (6 + sizeExp)`, `sizeExp` from 0 to 10. -/
  sizeExp : Fin 11
  deriving DecidableEq, Repr

/-- `DBUF_BYTES` (R5). -/
def Params.dbufBytes (p : Params) : Nat := 2 ^ (6 + p.sizeExp.val)

/-- The size the spec's test vectors use, 65536 (R5). DESIGN CHOICE: assumption log entry 1. -/
def Params.vectors : Params := ⟨10⟩

/-- FREE VALUE (spec/70_reset_and_hazards.md R291; U1): the unspecified byte that DBUF holds at an index
after a reset, until somebody writes it. The first argument numbers the resets, so that every reset
draws anew. Nothing constrains it. DESIGN CHOICE: assumption log entry 2. -/
opaque Config.resetDraw : Nat → Nat → Byte

end Sys2Proof
end

