-- ==== Sys2Proof/Machine/Bytes.lean ====
section
/-! DEFINITION. Byte sequences: the big-endian and little-endian views of numbers (spec/00_scope.md R7,
spec/20_memory.md R61, R62) and blocks made from byte lists. -/

namespace Sys2Proof

/-- The block whose byte `i` is byte `i` of the list (0 where the list is shorter; every use gives 16
bytes). -/
def Block.ofList (l : List Byte) : Block := Vector.ofFn fun i => l.getD i.val 0

namespace Machine

/-- `be16(v)` of R7: bits 15..8, then bits 7..0. -/
def be16 (v : Nat) : List Byte := [BitVec.ofNat 8 (v / 256), BitVec.ofNat 8 v]

/-- `be32(v)` of R7. -/
def be32 (v : Word) : List Byte :=
  [v.extractLsb' 24 8, v.extractLsb' 16 8, v.extractLsb' 8 8, v.extractLsb' 0 8]

/-- The four bytes of a word, least significant first (R61, spec/40_md5.md R117). -/
def leBytes (v : Word) : List Byte :=
  [v.extractLsb' 0 8, v.extractLsb' 8 8, v.extractLsb' 16 8, v.extractLsb' 24 8]

/-- The number whose byte `j` (bits `8j+7 .. 8j`) is entry `j` of the list, for up to four entries: the
little-endian lanes of R61 and the words of spec/40_md5.md R111. -/
def leWord (bs : List Byte) : Word :=
  (bs.getD 0 0).setWidth 32 ||| (bs.getD 1 0).setWidth 32 <<< 8
    ||| (bs.getD 2 0).setWidth 32 <<< 16 ||| (bs.getD 3 0).setWidth 32 <<< 24

end Machine

end Sys2Proof
end

