-- ==== Sys2Proof/Machine/Aes.lean ====
section
/-! DEFINITION. AES-128 as spec/41_cipher.md rules R140 to R145 define it, on 16-byte blocks, and
cipher-block chaining (rules R146, R147) on whole lists of blocks. -/

namespace Sys2Proof.Machine

/-- The substitution table of rule R141: one row per high nibble, one entry per low nibble. -/
def sboxRows : List (List Byte) := [
  [0x63, 0x7c, 0x77, 0x7b, 0xf2, 0x6b, 0x6f, 0xc5, 0x30, 0x01, 0x67, 0x2b, 0xfe, 0xd7, 0xab, 0x76],
  [0xca, 0x82, 0xc9, 0x7d, 0xfa, 0x59, 0x47, 0xf0, 0xad, 0xd4, 0xa2, 0xaf, 0x9c, 0xa4, 0x72, 0xc0],
  [0xb7, 0xfd, 0x93, 0x26, 0x36, 0x3f, 0xf7, 0xcc, 0x34, 0xa5, 0xe5, 0xf1, 0x71, 0xd8, 0x31, 0x15],
  [0x04, 0xc7, 0x23, 0xc3, 0x18, 0x96, 0x05, 0x9a, 0x07, 0x12, 0x80, 0xe2, 0xeb, 0x27, 0xb2, 0x75],
  [0x09, 0x83, 0x2c, 0x1a, 0x1b, 0x6e, 0x5a, 0xa0, 0x52, 0x3b, 0xd6, 0xb3, 0x29, 0xe3, 0x2f, 0x84],
  [0x53, 0xd1, 0x00, 0xed, 0x20, 0xfc, 0xb1, 0x5b, 0x6a, 0xcb, 0xbe, 0x39, 0x4a, 0x4c, 0x58, 0xcf],
  [0xd0, 0xef, 0xaa, 0xfb, 0x43, 0x4d, 0x33, 0x85, 0x45, 0xf9, 0x02, 0x7f, 0x50, 0x3c, 0x9f, 0xa8],
  [0x51, 0xa3, 0x40, 0x8f, 0x92, 0x9d, 0x38, 0xf5, 0xbc, 0xb6, 0xda, 0x21, 0x10, 0xff, 0xf3, 0xd2],
  [0xcd, 0x0c, 0x13, 0xec, 0x5f, 0x97, 0x44, 0x17, 0xc4, 0xa7, 0x7e, 0x3d, 0x64, 0x5d, 0x19, 0x73],
  [0x60, 0x81, 0x4f, 0xdc, 0x22, 0x2a, 0x90, 0x88, 0x46, 0xee, 0xb8, 0x14, 0xde, 0x5e, 0x0b, 0xdb],
  [0xe0, 0x32, 0x3a, 0x0a, 0x49, 0x06, 0x24, 0x5c, 0xc2, 0xd3, 0xac, 0x62, 0x91, 0x95, 0xe4, 0x79],
  [0xe7, 0xc8, 0x37, 0x6d, 0x8d, 0xd5, 0x4e, 0xa9, 0x6c, 0x56, 0xf4, 0xea, 0x65, 0x7a, 0xae, 0x08],
  [0xba, 0x78, 0x25, 0x2e, 0x1c, 0xa6, 0xb4, 0xc6, 0xe8, 0xdd, 0x74, 0x1f, 0x4b, 0xbd, 0x8b, 0x8a],
  [0x70, 0x3e, 0xb5, 0x66, 0x48, 0x03, 0xf6, 0x0e, 0x61, 0x35, 0x57, 0xb9, 0x86, 0xc1, 0x1d, 0x9e],
  [0xe1, 0xf8, 0x98, 0x11, 0x69, 0xd9, 0x8e, 0x94, 0x9b, 0x1e, 0x87, 0xe9, 0xce, 0x55, 0x28, 0xdf],
  [0x8c, 0xa1, 0x89, 0x0d, 0xbf, 0xe6, 0x42, 0x68, 0x41, 0x99, 0x2d, 0x0f, 0xb0, 0x54, 0xbb, 0x16]]

/-- The inverse substitution table of rule R144, in the layout of `sboxRows`. -/
def invSboxRows : List (List Byte) := [
  [0x52, 0x09, 0x6a, 0xd5, 0x30, 0x36, 0xa5, 0x38, 0xbf, 0x40, 0xa3, 0x9e, 0x81, 0xf3, 0xd7, 0xfb],
  [0x7c, 0xe3, 0x39, 0x82, 0x9b, 0x2f, 0xff, 0x87, 0x34, 0x8e, 0x43, 0x44, 0xc4, 0xde, 0xe9, 0xcb],
  [0x54, 0x7b, 0x94, 0x32, 0xa6, 0xc2, 0x23, 0x3d, 0xee, 0x4c, 0x95, 0x0b, 0x42, 0xfa, 0xc3, 0x4e],
  [0x08, 0x2e, 0xa1, 0x66, 0x28, 0xd9, 0x24, 0xb2, 0x76, 0x5b, 0xa2, 0x49, 0x6d, 0x8b, 0xd1, 0x25],
  [0x72, 0xf8, 0xf6, 0x64, 0x86, 0x68, 0x98, 0x16, 0xd4, 0xa4, 0x5c, 0xcc, 0x5d, 0x65, 0xb6, 0x92],
  [0x6c, 0x70, 0x48, 0x50, 0xfd, 0xed, 0xb9, 0xda, 0x5e, 0x15, 0x46, 0x57, 0xa7, 0x8d, 0x9d, 0x84],
  [0x90, 0xd8, 0xab, 0x00, 0x8c, 0xbc, 0xd3, 0x0a, 0xf7, 0xe4, 0x58, 0x05, 0xb8, 0xb3, 0x45, 0x06],
  [0xd0, 0x2c, 0x1e, 0x8f, 0xca, 0x3f, 0x0f, 0x02, 0xc1, 0xaf, 0xbd, 0x03, 0x01, 0x13, 0x8a, 0x6b],
  [0x3a, 0x91, 0x11, 0x41, 0x4f, 0x67, 0xdc, 0xea, 0x97, 0xf2, 0xcf, 0xce, 0xf0, 0xb4, 0xe6, 0x73],
  [0x96, 0xac, 0x74, 0x22, 0xe7, 0xad, 0x35, 0x85, 0xe2, 0xf9, 0x37, 0xe8, 0x1c, 0x75, 0xdf, 0x6e],
  [0x47, 0xf1, 0x1a, 0x71, 0x1d, 0x29, 0xc5, 0x89, 0x6f, 0xb7, 0x62, 0x0e, 0xaa, 0x18, 0xbe, 0x1b],
  [0xfc, 0x56, 0x3e, 0x4b, 0xc6, 0xd2, 0x79, 0x20, 0x9a, 0xdb, 0xc0, 0xfe, 0x78, 0xcd, 0x5a, 0xf4],
  [0x1f, 0xdd, 0xa8, 0x33, 0x88, 0x07, 0xc7, 0x31, 0xb1, 0x12, 0x10, 0x59, 0x27, 0x80, 0xec, 0x5f],
  [0x60, 0x51, 0x7f, 0xa9, 0x19, 0xb5, 0x4a, 0x0d, 0x2d, 0xe5, 0x7a, 0x9f, 0x93, 0xc9, 0x9c, 0xef],
  [0xa0, 0xe0, 0x3b, 0x4d, 0xae, 0x2a, 0xf5, 0xb0, 0xc8, 0xeb, 0xbb, 0x3c, 0x83, 0x53, 0x99, 0x61],
  [0x17, 0x2b, 0x04, 0x7e, 0xba, 0x77, 0xd6, 0x26, 0xe1, 0x69, 0x14, 0x63, 0x55, 0x21, 0x0c, 0x7d]]

/-- An entry of a 16 by 16 table: row = high nibble, column = low nibble (R141). -/
def tableAt (rows : List (List Byte)) (a : Byte) : Byte :=
  (rows.getD (a.toNat / 16) []).getD (a.toNat % 16) 0

/-- `SBOX[a]` (R141). -/
def sbox (a : Byte) : Byte := tableAt sboxRows a

/-- `INV_SBOX[a]` (R144). -/
def invSbox (a : Byte) : Byte := tableAt invSboxRows a

/-- `xtime` of R145: multiplication by x in GF(2^8) modulo x^8 + x^4 + x^3 + x + 1. -/
def xtime (a : Byte) : Byte := (a <<< 1) ^^^ (if a.getLsbD 7 then 0x1b else 0x00)

/-- The xor of `xtime^j a` over the set bits `j < n` of `b` (R145). -/
def gmulBits : Nat → Byte → Byte → Byte
  | 0, _, _ => 0
  | n + 1, b, a =>
    if b = 0 then 0 else (if b.getLsbD 0 then a else 0) ^^^ gmulBits n (b >>> 1) (xtime a)

/-- Multiplication in GF(2^8) (R145): `gmul b a` is the rule's `a•b`, the constant written first. -/
def gmul (b a : Byte) : Byte := gmulBits 8 b a

/-- Bytewise exclusive or of two blocks: AddRoundKey (R140) and the chaining of R146 and R147. -/
def xorBlock (a b : Block) : Block := Vector.zipWith (· ^^^ ·) a b

/-- SubBytes (R140). -/
def subBytes (s : Block) : Block := s.map sbox

/-- InvSubBytes (R143). -/
def invSubBytes (s : Block) : Block := s.map invSbox

/-- ShiftRows (R140): byte `r + 4c` of the result is byte `r + 4((c + r) mod 4)` of `s`. -/
def shiftRows (s : Block) : Block :=
  Vector.ofFn fun i => s[i.val % 4 + 4 * ((i.val / 4 + i.val % 4) % 4)]'(by omega)

/-- InvShiftRows (R143): byte `r + 4c` of the result is byte `r + 4((c - r) mod 4)` of `s`
(`c - r` taken as `c + 4 - r`, the same residue modulo 4). -/
def invShiftRows (s : Block) : Block :=
  Vector.ofFn fun i => s[i.val % 4 + 4 * ((i.val / 4 + 4 - i.val % 4) % 4)]'(by omega)

/-- The byte of row `r + j` (rows modulo 4) in the column of byte `i`, where `r` is the row of `i`:
the `a_(r+j)` of R140's MixColumns. -/
def columnByte (s : Block) (i : Fin 16) (j : Nat) : Byte :=
  s[4 * (i.val / 4) + (i.val % 4 + j) % 4]'(by omega)

/-- A column map with the coefficients `m0 m1 m2 m3`: the result's row `r` is
`m0•a_r ^ m1•a_(r+1) ^ m2•a_(r+2) ^ m3•a_(r+3)`. -/
def mixWith (m0 m1 m2 m3 : Byte) (s : Block) : Block :=
  Vector.ofFn fun i =>
    gmul m0 (columnByte s i 0) ^^^ gmul m1 (columnByte s i 1)
      ^^^ gmul m2 (columnByte s i 2) ^^^ gmul m3 (columnByte s i 3)

/-- MixColumns (R140). -/
def mixColumns (s : Block) : Block := mixWith 0x02 0x03 0x01 0x01 s

/-- InvMixColumns (R143). -/
def invMixColumns (s : Block) : Block := mixWith 0x0e 0x0b 0x0d 0x09 s

/-- A four-byte word of the key schedule (R142). -/
abbrev KeyWord := Vector Byte 4

/-- `RotWord([a0, a1, a2, a3]) = [a1, a2, a3, a0]` (R142). -/
def rotWord (w : KeyWord) : KeyWord := #v[w[1], w[2], w[3], w[0]]

/-- `SubWord` (R142): SBOX on each byte. -/
def subWord (w : KeyWord) : KeyWord := w.map sbox

/-- Exclusive or of two key-schedule words. -/
def xorKeyWord (a b : KeyWord) : KeyWord := Vector.zipWith (· ^^^ ·) a b

/-- `Rcon[1..10]` (R142), entry `j` being `Rcon[j + 1]`. -/
def rconTable : List Byte := [0x01, 0x02, 0x04, 0x08, 0x10, 0x20, 0x40, 0x80, 0x1b, 0x36]

/-- The word `t` of R142 for index `i`, from the word before it. -/
def keyTemp (i : Nat) (prev : KeyWord) : KeyWord :=
  if i % 4 = 0 then
    xorKeyWord (subWord (rotWord prev)) #v[rconTable.getD (i / 4 - 1) 0, 0x00, 0x00, 0x00]
  else prev

/-- One word of the expansion put in front of the words already made (newest first):
`w[i] = w[i-4] ^ t` (R142). -/
def keyStep (ws : List KeyWord) (i : Nat) : List KeyWord :=
  xorKeyWord (ws.getD 3 (Vector.replicate 4 0)) (keyTemp i (ws.getD 0 (Vector.replicate 4 0))) :: ws

/-- The word `k[4i .. 4i+3]` of a key, for `i < 4` (R142). -/
def keyWord0 (k : Block) (i : Fin 4) : KeyWord :=
  #v[k[4 * i.val], k[4 * i.val + 1], k[4 * i.val + 2], k[4 * i.val + 3]]

/-- The 44 words `w[0] .. w[43]` of the key expansion, in order (R142). -/
def keyWords (k : Block) : List KeyWord :=
  ((List.range' 4 40).foldl keyStep
    [keyWord0 k 3, keyWord0 k 2, keyWord0 k 1, keyWord0 k 0]).reverse

/-- Round key `K_r = w[4r] ‖ w[4r+1] ‖ w[4r+2] ‖ w[4r+3]` of the expansion `ws` (R142). -/
def roundKeyOf (ws : List KeyWord) (r : Nat) : Block :=
  Block.ofList (((ws.drop (4 * r)).take 4).flatMap Vector.toList)

/-- One of the rounds 1 to 9 of R140 with its round key. -/
def encRound (s rk : Block) : Block := xorBlock (mixColumns (shiftRows (subBytes s))) rk

/-- One of the rounds 9 to 1 of R143 with its round key. -/
def decRound (s rk : Block) : Block :=
  invMixColumns (xorBlock (invSubBytes (invShiftRows s)) rk)

/-- The round keys `K_1 .. K_9`, in that order. -/
def middleKeys (ws : List KeyWord) : List Block := (List.range' 1 9).map (roundKeyOf ws)

/-- `aes_enc(k, b)` (R140). -/
def aesEnc (k b : Block) : Block :=
  let ws := keyWords k
  let s := (middleKeys ws).foldl encRound (xorBlock b (roundKeyOf ws 0))
  xorBlock (shiftRows (subBytes s)) (roundKeyOf ws 10)

/-- `aes_dec(k, b)` (R143). -/
def aesDec (k b : Block) : Block :=
  let ws := keyWords k
  let s := (middleKeys ws).reverse.foldl decRound (xorBlock b (roundKeyOf ws 10))
  xorBlock (invSubBytes (invShiftRows s)) (roundKeyOf ws 0)

/-- The first `m` 16-byte blocks of a byte sequence (R146: `P_0 .. P_(m-1)`). -/
def blocksOf : Nat → List Byte → List Block
  | 0, _ => []
  | m + 1, p => Block.ofList (p.take blockBytes) :: blocksOf m (p.drop blockBytes)

/-- The ciphertext blocks of R146, `prev` being `C_(j-1)`. -/
def cbcEncBlocks (k : Block) : Block → List Block → List Block
  | _, [] => []
  | prev, p :: ps =>
    let c := aesEnc k (xorBlock p prev)
    c :: cbcEncBlocks k c ps

/-- The plaintext blocks of R147, `prev` being `C_(j-1)`. -/
def cbcDecBlocks (k : Block) : Block → List Block → List Block
  | _, [] => []
  | prev, c :: cs => xorBlock (aesDec k c) prev :: cbcDecBlocks k c cs

/-- `cbc_enc(k, iv, P)` (R146), meant for `len(P) mod 16 = 0`: the rule's `m` is `len(P)/16`. -/
def cbcEnc (k iv : Block) (p : List Byte) : List Byte :=
  (cbcEncBlocks k iv (blocksOf (p.length / blockBytes) p)).flatMap Vector.toList

/-- `cbc_dec(k, iv, C)` (R147), meant for `len(C) mod 16 = 0`. -/
def cbcDec (k iv : Block) (c : List Byte) : List Byte :=
  (cbcDecBlocks k iv (blocksOf (c.length / blockBytes) c)).flatMap Vector.toList

end Sys2Proof.Machine
end

