-- ==== Sys2Proof/Machine/Md5.lean ====
section
/-! DEFINITION. The function `md5` of spec/40_md5.md rules R110 to R117, on a byte list of any length. -/

namespace Sys2Proof.Machine

/-- The 64 additive constants of R114, `T[i]` being entry `i`. -/
def md5T : List Word := [
  0xd76aa478, 0xe8c7b756, 0x242070db, 0xc1bdceee,
  0xf57c0faf, 0x4787c62a, 0xa8304613, 0xfd469501,
  0x698098d8, 0x8b44f7af, 0xffff5bb1, 0x895cd7be,
  0x6b901122, 0xfd987193, 0xa679438e, 0x49b40821,
  0xf61e2562, 0xc040b340, 0x265e5a51, 0xe9b6c7aa,
  0xd62f105d, 0x02441453, 0xd8a1e681, 0xe7d3fbc8,
  0x21e1cde6, 0xc33707d6, 0xf4d50d87, 0x455a14ed,
  0xa9e3e905, 0xfcefa3f8, 0x676f02d9, 0x8d2a4c8a,
  0xfffa3942, 0x8771f681, 0x6d9d6122, 0xfde5380c,
  0xa4beea44, 0x4bdecfa9, 0xf6bb4b60, 0xbebfbc70,
  0x289b7ec6, 0xeaa127fa, 0xd4ef3085, 0x04881d05,
  0xd9d4d039, 0xe6db99e5, 0x1fa27cf8, 0xc4ac5665,
  0xf4292244, 0x432aff97, 0xab9423a7, 0xfc93a039,
  0x655b59c3, 0x8f0ccc92, 0xffeff47d, 0x85845dd1,
  0x6fa87e4f, 0xfe2ce6e0, 0xa3014314, 0x4e0811a1,
  0xf7537e82, 0xbd3af235, 0x2ad7d2bb, 0xeb86d391]

/-- `rotl32` of spec/00_scope.md R8, for `1 <= s <= 31`. -/
def rotl32 (x : Word) (s : Nat) : Word := (x <<< s) ||| (x >>> (32 - s))

/-- The round function of step `i` (R113). -/
def md5Round (i : Nat) (x y z : Word) : Word :=
  if i < 16 then (x &&& y) ||| (~~~x &&& z)
  else if i < 32 then (x &&& z) ||| (y &&& ~~~z)
  else if i < 48 then x ^^^ y ^^^ z
  else y ^^^ (x ||| ~~~z)

/-- The message index `k(i)` of step `i` (R115). -/
def md5Index (i : Nat) : Nat :=
  if i < 16 then i
  else if i < 32 then (5 * i + 1) % 16
  else if i < 48 then (3 * i + 5) % 16
  else 7 * i % 16

/-- The rotation `s(i)` of step `i` (R115): the entry `i mod 4` of its round's list. -/
def md5Shift (i : Nat) : Nat :=
  (if i < 16 then [7, 12, 17, 22]
   else if i < 32 then [5, 9, 14, 20]
   else if i < 48 then [4, 11, 16, 23]
   else [6, 10, 15, 21]).getD (i % 4) 0

/-- The four chaining words `A B C D` of R112, and the working words of R116. -/
structure Md5Chain where
  a : Word
  b : Word
  c : Word
  d : Word
  deriving DecidableEq, Repr

/-- The chaining values before the first block (R112). -/
def md5Init : Md5Chain := ⟨0x67452301, 0xEFCDAB89, 0x98BADCFE, 0x10325476⟩

/-- `X[j]` of a 64-byte block: its little-endian word `j` (R111). -/
def md5Word (blk : List Byte) (j : Nat) : Word := leWord (blk.drop (4 * j))

/-- One of the 64 steps of R116. -/
def md5Step (blk : List Byte) (w : Md5Chain) (i : Nat) : Md5Chain :=
  let f := md5Round i w.b w.c w.d
  let tmp := w.b + rotl32 (w.a + f + md5Word blk (md5Index i) + md5T.getD i 0) (md5Shift i)
  ⟨w.d, tmp, w.b, w.c⟩

/-- The compression of one 64-byte block (R116). -/
def md5Compress (ch : Md5Chain) (blk : List Byte) : Md5Chain :=
  let w := (List.range 64).foldl (md5Step blk) ch
  ⟨ch.a + w.a, ch.b + w.b, ch.c + w.c, ch.d + w.d⟩

/-- The number `z` of zero bytes of the padding: the least one with `(L + 1 + z) mod 64 = 56` (R110). -/
def md5Zeros (len : Nat) : Nat := (119 - len % 64) % 64

/-- `le64(v)`: the 8 bytes of `v mod 2^64`, least significant first (R110). -/
def le64 (v : Nat) : List Byte := (List.range 8).map fun j => BitVec.ofNat 8 (v / 256 ^ j)

/-- The padded message `p` of R110. -/
def md5Pad (m : List Byte) : List Byte :=
  m ++ [0x80] ++ List.replicate (md5Zeros m.length) 0x00 ++ le64 (8 * m.length % 2 ^ 64)

/-- The first `n` 64-byte blocks of a byte sequence (R110). -/
def md5Blocks : Nat → List Byte → List (List Byte)
  | 0, _ => []
  | n + 1, p => p.take 64 :: md5Blocks n (p.drop 64)

/-- The 16 digest bytes of the final chaining values (R117). -/
def md5Output (ch : Md5Chain) : Block :=
  Block.ofList (leBytes ch.a ++ leBytes ch.b ++ leBytes ch.c ++ leBytes ch.d)

/-- `md5(m)` (R110). -/
def md5 (m : List Byte) : Block :=
  let p := md5Pad m
  md5Output ((md5Blocks (p.length / 64) p).foldl md5Compress md5Init)

end Sys2Proof.Machine
end

