-- ==== Sys2Proof/Machine/State.lean ====
section
/-! DEFINITION. The machine's state as plain data (spec/10_state.md R20 to R45), why a step can stop, and
the state after reset (spec/70_reset_and_hazards.md R291). -/

namespace Sys2Proof.Machine

/-- The error codes of ERRINFO.CODE (spec/60_exceptions.md R251). The reserved codes 0x0C to 0xFF are
never reported (U4), so they are no values here; the numbers are `Sys2Proof.Machine.errNumber`. -/
inductive ErrCode where
  /-- 0x00 NONE. -/
  | none
  /-- 0x01 ILLEGAL_CMD. -/
  | illegalCmd
  /-- 0x02 NO_KEY. -/
  | noKey
  /-- 0x03 RANGE. -/
  | range
  /-- 0x04 EMPTY_INPUT. -/
  | emptyInput
  /-- 0x05 BUF_OVF. -/
  | bufOvf
  /-- 0x06 ALIGN. -/
  | align
  /-- 0x07 BAD_PAD. -/
  | badPad
  /-- 0x08 SHORT_FRAME. -/
  | shortFrame
  /-- 0x09 CHECKSUM. -/
  | checksum
  /-- 0x0A EMPTY_BODY. -/
  | emptyBody
  /-- 0x0B LEN_OVF. -/
  | lenOvf
  deriving DecidableEq, Repr

/-- The written bytes of DBUF: (index, byte) pairs, indices strictly rising (`Memory.wf`). An index that
is not listed has no byte of its own since the last reset; what it reads as is `State.byte`. -/
abbrev Memory := List Host.Cell

/-- A host program and where it stands (spec/30_encoding.md R95; spec/70_reset_and_hazards.md R302). It is
the host agent's state, not the engine's. -/
structure HostProgram where
  /-- The program's lines. -/
  lines : List Line
  /-- The index of the line to execute next. -/
  pos : Nat
  /-- The values read so far under their names, the latest first. -/
  values : List (String × Word)
  /-- An access of the program was refused with a bus error, or a branch line had no meaning: the run is
  a faulted run (R66, R302) and the program executes no further line. -/
  faulted : Bool
  deriving DecidableEq, Repr

/-- The host program of no lines. -/
def HostProgram.empty : HostProgram := ⟨[], 0, [], false⟩

/-- The state of the machine. The architectural state is what spec/10_state.md R20 lists: the registers of
R24, DBUF, and the pending-command latch (`cmd` and `busy`). ID is a constant and IRQ is computed, so
neither is stored. The last five fields are the MODEL's own (assumption log entries 1 to 4). -/
structure State where
  /-- CTRL.IE (R26); CTRL.SRST reads 0 and the other bits are reserved. -/
  ie : Bool
  /-- CMD: the last accepted command word (R27). -/
  cmd : Word
  /-- STATUS.BUSY (R28): a command is pending. -/
  busy : Bool
  /-- STATUS.DONE (R28). -/
  done : Bool
  /-- STATUS.ERR (R28). -/
  err : Bool
  /-- STATUS.KEYV (R28). -/
  keyv : Bool
  /-- STATUS.OVR (R28). -/
  ovr : Bool
  /-- ERRINFO.CODE (R29). -/
  errCode : ErrCode
  /-- ERRINFO.OP (R29). -/
  errOp : Byte
  /-- BLEN (R30). -/
  blen : Word
  /-- FLEN (R31). -/
  flen : Word
  /-- HOFF (R32). -/
  hoff : Word
  /-- HLEN (R33). -/
  hlen : Word
  /-- DEVID (R34). -/
  devid : Word
  /-- STAMP (R35). -/
  stamp : Word
  /-- TOKEN (R36). -/
  token : Block
  /-- KEY (R37). -/
  key : Block
  /-- IV (R38). -/
  iv : Block
  /-- DIGEST (R39). -/
  digest : Block
  /-- DBUF (spec/20_memory.md R60), as far as it was written since the last reset. -/
  dbuf : Memory
  /-- MODEL: the implementation's parameters (spec/00_scope.md R5). No step changes them. -/
  params : Params
  /-- MODEL: how many resets there were; it numbers the draw of DBUF's contents (U1). -/
  resets : Nat
  /-- MODEL: the turns still to come, in order; the environment's input (U9, U11). -/
  agenda : List Turn
  /-- MODEL: the answers the host port has given, the latest first. -/
  answers : List Answer
  /-- MODEL: the host program (R95). -/
  host : HostProgram
  deriving DecidableEq, Repr

/-- Why the machine can stop with a fault. -/
inductive Fault where
  /-- Raised by `State.memRead` and `State.memWrite` when a command reaches past DBUF, where R78 of
  spec/20_memory.md leaves them undefined. Safe: the model stops where the spec gives nothing. Every
  command checks its range first, so no step is expected to raise it (Obligations.StepNeverStops). -/
  | outsideDbuf
  deriving DecidableEq, Repr

/-- Why the machine can refuse. -/
inductive Refusal where
  /-- An instruction that has no meaning in the model yet; raised by `exec` alone. Safe. No arm of
  `exec` raises it: every command has its meaning. -/
  | notModelled (mnemonic : String)
  deriving DecidableEq, Repr

/-- The 16 bytes of 0x00 that TOKEN, KEY, IV and DIGEST reset to (R291). -/
def zeroBlock : Block := Vector.replicate 16 0x00

/-- The machine right after its first reset (R291), for an implementation with the parameters `p`: every
register 0, DBUF unwritten, nothing pending. -/
def State.resetWith (p : Params) : State where
  ie := false
  cmd := 0
  busy := false
  done := false
  err := false
  keyv := false
  ovr := false
  errCode := .none
  errOp := 0
  blen := 0
  flen := 0
  hoff := 0
  hlen := 0
  devid := 0
  stamp := 0
  token := zeroBlock
  key := zeroBlock
  iv := zeroBlock
  digest := zeroBlock
  dbuf := []
  params := p
  resets := 0
  agenda := []
  answers := []
  host := HostProgram.empty

/-- The machine right after reset with the buffer size of the spec's vectors. -/
def State.reset : State := State.resetWith Params.vectors

end Sys2Proof.Machine
end

