-- ==== Sys2Proof/Machine/Mem.lean ====
section
/-! DEFINITION. The written bytes of DBUF as one canonical list (spec/20_memory.md R60, R78). -/

namespace Sys2Proof.Machine

/-- The byte the list gives an index, if it was written since the last reset. An unlisted index reads as
no byte here; `State.byte` gives it the reset's draw. -/
def Memory.get : Memory → Nat → Option Byte
  | [], _ => none
  | (k, v) :: m, a => if a = k then some v else Memory.get m a

/-- The list with the byte `b` at the index `a`, keeping the indices strictly rising. -/
def Memory.set : Memory → Nat → Byte → Memory
  | [], a, b => [(a, b)]
  | (k, v) :: m, a, b =>
    if a < k then (a, b) :: (k, v) :: m
    else if a = k then (a, b) :: m
    else (k, v) :: Memory.set m a b

/-- The list with the bytes `bs` at the indices `a`, `a + 1`, … (R78: `DBUF[a+j] <- s[j]`). -/
def Memory.poke : Memory → Nat → List Byte → Memory
  | m, _, [] => m
  | m, a, b :: bs => Memory.poke (Memory.set m a b) (a + 1) bs

/-- The canonical form: the indices strictly rise. No entry can equal what an unlisted index reads as,
since that is a free value; equal writes since the last reset give equal lists. -/
def Memory.wf : Memory → Bool
  | [] => true
  | [_] => true
  | (k, _) :: (k', v') :: m => decide (k < k') && Memory.wf ((k', v') :: m)

/-- Every written index lies in a buffer of `size` bytes. -/
def Memory.within (size : Nat) (m : Memory) : Bool := m.all fun c => decide (c.1 < size)

end Sys2Proof.Machine
end

