-- ==== Sys2Proof/Machine/Ops.lean ====
section
/-! DEFINITION. The named operations every command and every host access is built from: the data buffer
(spec/20_memory.md R78), the way a command ends (spec/60_exceptions.md R250, R257; spec/10_state.md R45), the
acknowledgement that returns from it (R261), command acceptance, and reset. -/

namespace Sys2Proof.Machine

/-- `DBUF_BYTES` of this machine (spec/00_scope.md R5). -/
def State.dbufBytes (s : State) : Nat := s.params.dbufBytes

/-- `DBUF[i]`: the byte written there since the last reset, else the draw of that reset (R291, U1). -/
def State.byte (s : State) (i : Nat) : Byte := (s.dbuf.get i).getD (Config.resetDraw s.resets i)

/-- The bytes `DBUF[a .. a+n-1]` (spec/00_scope.md R9). -/
def State.peek (s : State) (a n : Nat) : List Byte := (List.range n).map fun j => s.byte (a + j)

/-- DBUF with `bs` at `a`, `a + 1`, … and every other byte as it was (R77, R78). -/
def State.poke (s : State) (a : Nat) (bs : List Byte) : State := { s with dbuf := s.dbuf.poke a bs }

/-- How the pseudocode of a command ends (spec/00_scope.md R9). -/
inductive CmdEnd where
  /-- `complete()`. -/
  | complete (s : State)
  /-- `raise CmdError(code, op)`, with the state the writes before it left. -/
  | raised (code : ErrCode) (op : Byte) (s : State)
  /-- The machine stopped inside the command. -/
  | fault (f : Fault)
  deriving DecidableEq, Repr

/-- `MemRead(a, n)` (R78), given to what follows it. -/
def State.memRead (s : State) (a n : Nat) (rest : List Byte → CmdEnd) : CmdEnd :=
  if a + n ≤ s.dbufBytes then rest (s.peek a n) else .fault .outsideDbuf

/-- `MemWrite(a, len(bs), bs)` (R78), and what follows it in the state it leaves. -/
def State.memWrite (s : State) (a : Nat) (bs : List Byte) (rest : State → CmdEnd) : CmdEnd :=
  if a + bs.length ≤ s.dbufBytes then rest (s.poke a bs) else .fault .outsideDbuf

/-- `perform X` of spec/43_sequence.md R223: the part `r`, then `rest` in the state it leaves; an error of the
part ends the whole with that same error (R257). -/
def CmdEnd.andThen (r : CmdEnd) (rest : State → CmdEnd) : CmdEnd :=
  match r with
  | .complete s => rest s
  | .raised code op s => .raised code op s
  | .fault f => .fault f

/-- Successful completion (R45): `BUSY <- 0; DONE <- 1`. -/
def State.finishDone (s : State) : State := { s with busy := false, done := true }

/-- Completion in error (R250), the engine's equivalent of taking an exception (R260): `BUSY <- 0;
ERR <- 1; ERRINFO.CODE <- code; ERRINFO.OP <- op`. DONE stays as it is. -/
def State.finishErr (s : State) (code : ErrCode) (op : Byte) : State :=
  { s with busy := false, err := true, errCode := code, errOp := op }

/-- The completion part of the engine step (R45). -/
def CmdEnd.finish : CmdEnd → Host.Outcome State Fault Refusal
  | .complete s => .next s.finishDone
  | .raised code op s => .next (s.finishErr code op)
  | .fault f => .fault f

/-- The acknowledgement (R261): a STATUS write clears DONE, ERR and OVR where its bits 1, 2 and 4 are 1
and leaves everything else (spec/10_state.md R28). -/
def State.writeStatus (s : State) (v : Word) : State :=
  { s with
    done := s.done && !v.getLsbD 1
    err := s.err && !v.getLsbD 2
    ovr := s.ovr && !v.getLsbD 4 }

/-- Command acceptance (spec/10_state.md R45): `CMD <- w; DONE <- 0; ERR <- 0; ERRINFO <- 0; BUSY <- 1`. -/
def State.accept (s : State) (w : Word) : State :=
  { s with cmd := w, done := false, err := false, errCode := .none, errOp := 0, busy := true }

/-- A dropped CMD write (R262): `OVR <- 1`. -/
def State.overrun (s : State) : State := { s with ovr := true }

/-- A CMD write (spec/10_state.md R27): accepted when idle, dropped when busy. -/
def State.writeCmd (s : State) (w : Word) : State := if s.busy then s.overrun else s.accept w

/-- Reset (spec/70_reset_and_hazards.md R291): every register at its reset value, a pending command discarded,
a new draw for DBUF. What is not the engine's (parameters, agenda, answers, host program) stays. -/
def State.hardReset (s : State) : State :=
  { State.resetWith s.params with
    resets := s.resets + 1
    agenda := s.agenda
    answers := s.answers
    host := s.host }

/-- A CTRL write with SRST = 0: IE is bit 0 (spec/10_state.md R26). -/
def State.setIe (s : State) (b : Bool) : State := { s with ie := b }

/-- A CTRL write (R26): SRST = 1 resets and discards the rest of the value; else IE is stored. -/
def State.writeCtrl (s : State) (v : Word) : State :=
  if v.getLsbD 1 then s.hardReset else s.setIe (v.getLsbD 0)

/-- `BLEN <- n` for a length computed on natural numbers (spec/00_scope.md R6). -/
def State.setBlen (s : State) (n : Nat) : State := { s with blen := BitVec.ofNat 32 n }

/-- `FLEN <- n`. -/
def State.setFlen (s : State) (n : Nat) : State := { s with flen := BitVec.ofNat 32 n }

/-- `DIGEST <- d`. -/
def State.setDigest (s : State) (d : Block) : State := { s with digest := d }

/-- `KEY <- k; IV <- v; KEYV <- 1` (spec/41_cipher.md R148). -/
def State.setKeys (s : State) (k v : Block) : State := { s with key := k, iv := v, keyv := true }

/-- A host write to the TOKEN region (spec/10_state.md R36): the addressed bytes are written from byte
`i` on and KEYV is cleared. -/
def State.writeToken (s : State) (i : Nat) (bs : List Byte) : State :=
  { s with
    token := Vector.ofFn fun j =>
      if i ≤ j.val ∧ j.val < i + bs.length then bs.getD (j.val - i) 0 else s.token[j]
    keyv := false }

/-- The remaining agenda. -/
def State.setAgenda (s : State) (ts : List Turn) : State := { s with agenda := ts }

/-- One more answer of the host port. -/
def State.addAnswer (s : State) (a : Answer) : State := { s with answers := a :: s.answers }

/-- Where the host program stands. -/
def State.setHost (s : State) (h : HostProgram) : State := { s with host := h }

end Sys2Proof.Machine
end

