-- ==== Sys2Proof/Machine/Operands.lean ====
section
/-! DEFINITION. The operand forms of the commands: the six 32-bit operand registers (spec/10_state.md
R22, R30 to R35) and the two fixed regions of DBUF, the frame and the body (spec/20_memory.md R60). -/

namespace Sys2Proof.Machine

/-- The operand registers (R22). -/
inductive OpReg where
  | blen
  | flen
  | hoff
  | hlen
  | devid
  | stamp
  deriving DecidableEq, Repr

/-- The value of an operand register. -/
def State.opReg (s : State) : OpReg → Word
  | .blen => s.blen
  | .flen => s.flen
  | .hoff => s.hoff
  | .hlen => s.hlen
  | .devid => s.devid
  | .stamp => s.stamp

/-- A host write to an operand register: every 32-bit value can be written (R30 to R35). -/
def State.setOpReg (s : State) (r : OpReg) (v : Word) : State :=
  match r with
  | .blen => { s with blen := v }
  | .flen => { s with flen := v }
  | .hoff => { s with hoff := v }
  | .hlen => { s with hlen := v }
  | .devid => { s with devid := v }
  | .stamp => { s with stamp := v }

/-- `L <- x[BLEN]` as a natural number (R93 of spec/30_encoding.md). -/
def State.bodyLen (s : State) : Nat := s.blen.toNat

/-- `F <- x[FLEN]` as a natural number. -/
def State.frameLen (s : State) : Nat := s.flen.toNat

/-- The body `DBUF[32 .. 32+BLEN-1]` (R30). -/
def State.body (s : State) : List Byte := s.peek bodyOffset s.bodyLen

/-- The frame `DBUF[0 .. FLEN-1]` (R31). -/
def State.frame (s : State) : List Byte := s.peek 0 s.frameLen

/-- The range check of every command that uses BLEN: `BLEN > DBUF_BYTES - 32` (R30). -/
def State.bodyPastEnd (s : State) : Bool := decide (s.dbufBytes - bodyOffset < s.bodyLen)

/-- The range check of FDEC: `FLEN > DBUF_BYTES` (R31). -/
def State.framePastEnd (s : State) : Bool := decide (s.dbufBytes < s.frameLen)

/-- The range check of MD5: `HOFF + HLEN > DBUF_BYTES`, a sum of natural numbers (R33). -/
def State.hashPastEnd (s : State) : Bool := decide (s.dbufBytes < s.hoff.toNat + s.hlen.toNat)

/-- The PKCS7 pad length `n = 16 - (L mod 16)` (spec/41_cipher.md R149). -/
def padLength (len : Nat) : Nat := blockBytes - len % blockBytes

/-- `bytes(n, n)`: `n` bytes each of value `n` (R149, R150). -/
def padBytes (n : Nat) : List Byte := List.replicate n (BitVec.ofNat 8 n)

/-- The checksum image `img(f, t) = f[0 .. 15] ‖ t ‖ f[32 .. F-1]` of a frame of at least 32 bytes
(spec/42_frame.md R191). -/
def checksumImage (f : List Byte) (t : Block) : List Byte :=
  f.take slotOffset ++ t.toList ++ f.drop bodyOffset

end Sys2Proof.Machine
end

