-- ==== Sys2Proof/Machine/Cipher.lean ====
section
/-! DEFINITION. The cipher commands DERIVE, PAD, UNPAD, ENC and DEC (spec/41_cipher.md R148 to R152). The
checks stand in the order of their pseudocode, so each precedes every write (spec/60_exceptions.md R256). -/

namespace Sys2Proof.Machine

/-- The pseudocode of DERIVE (R148): `KEY = md5(TOKEN)`, `IV = md5(KEY ‖ TOKEN)`, `KEYV <- 1`. -/
def runDerive (s : State) : CmdEnd :=
  let k := md5 s.token.toList
  .complete (s.setKeys k (md5 (k.toList ++ s.token.toList)))

/-- The pseudocode of PAD (R149). -/
def runPad (s : State) : CmdEnd :=
  let len := s.bodyLen
  if s.bodyPastEnd then .raised .range 0x11 s
  else if len = 0 then .raised .emptyInput 0x11 s
  else
    let n := padLength len
    if s.dbufBytes < bodyOffset + len + n then .raised .bufOvf 0x11 s
    else s.memWrite (bodyOffset + len) (padBytes n) fun s => .complete (s.setBlen (len + n))

/-- The pseudocode of UNPAD (R150); the claimed pad length is not bounded by the block size (U3). -/
def runUnpad (s : State) : CmdEnd :=
  let len := s.bodyLen
  if s.bodyPastEnd then .raised .range 0x12 s
  else if len = 0 then .raised .badPad 0x12 s
  else s.memRead (bodyOffset + len - 1) 1 fun last =>
    let n := (last.getD 0 0).toNat
    if n = 0 ∨ len < n ∨ len % blockBytes ≠ 0 then .raised .badPad 0x12 s
    else s.memRead (bodyOffset + len - n) n fun tail =>
      if tail ≠ padBytes n then .raised .badPad 0x12 s
      else .complete (s.setBlen (len - n))

/-- The pseudocode of ENC (R151). -/
def runEnc (s : State) : CmdEnd :=
  if !s.keyv then .raised .noKey 0x13 s
  else if s.bodyPastEnd then .raised .range 0x13 s
  else if s.bodyLen % blockBytes ≠ 0 then .raised .align 0x13 s
  else s.memRead bodyOffset s.bodyLen fun p =>
    s.memWrite bodyOffset (cbcEnc s.key s.iv p) fun s => .complete s

/-- The pseudocode of DEC (R152). -/
def runDec (s : State) : CmdEnd :=
  if !s.keyv then .raised .noKey 0x14 s
  else if s.bodyPastEnd then .raised .range 0x14 s
  else if s.bodyLen % blockBytes ≠ 0 then .raised .align 0x14 s
  else s.memRead bodyOffset s.bodyLen fun c =>
    s.memWrite bodyOffset (cbcDec s.key s.iv c) fun s => .complete s

/-- DERIVE (R148): the session key and IV from the token. -/
def execDerive (s : State) : Host.Outcome State Fault Refusal := (runDerive s).finish

/-- PAD (R149): PKCS7-pad the body. -/
def execPad (s : State) : Host.Outcome State Fault Refusal := (runPad s).finish

/-- UNPAD (R150): validate and remove PKCS7 padding. -/
def execUnpad (s : State) : Host.Outcome State Fault Refusal := (runUnpad s).finish

/-- ENC (R151): encrypt the body in place. -/
def execEnc (s : State) : Host.Outcome State Fault Refusal := (runEnc s).finish

/-- DEC (R152): decrypt the body in place. -/
def execDec (s : State) : Host.Outcome State Fault Refusal := (runDec s).finish

end Sys2Proof.Machine
end

