-- ==== Sys2Proof/Machine/Frame.lean ====
section
/-! DEFINITION. The frame commands FENC and FDEC (spec/42_frame.md R190 to R193). -/

namespace Sys2Proof.Machine

/-- The pseudocode of FENC (R192): the header in front of the body, the token as placeholder in the
checksum slot, the digest of the whole frame over it. -/
def runFenc (s : State) : CmdEnd :=
  let len := s.bodyLen
  if !s.keyv then .raised .noKey 0x20 s
  else if s.bodyPastEnd then .raised .range 0x20 s
  else if maxFrame < bodyOffset + len then .raised .lenOvf 0x20 s
  else
    s.memWrite 0 magicBytes fun s =>
    s.memWrite 2 (be16 (bodyOffset + len)) fun s =>
    s.memWrite 4 (List.replicate 4 0x00) fun s =>
    s.memWrite 8 (be32 s.devid) fun s =>
    s.memWrite 12 (be32 s.stamp) fun s =>
    s.memWrite slotOffset s.token.toList fun s =>
    s.memRead 0 (bodyOffset + len) fun image =>
    let d := md5 image
    s.memWrite slotOffset d.toList fun s =>
    .complete ((s.setDigest d).setFlen (bodyOffset + len))

/-- The pseudocode of FDEC (R193). The token is substituted in the MD5 input only; no DBUF byte is
written. EMPTY_BODY stands where the rule has it, after SHORT_FRAME, so it is never reached (U12). -/
def runFdec (s : State) : CmdEnd :=
  let len := s.frameLen
  if !s.keyv then .raised .noKey 0x21 s
  else if s.framePastEnd then .raised .range 0x21 s
  else if len < minFrame then .raised .shortFrame 0x21 s
  else
    s.memRead slotOffset 16 fun c =>
    s.memRead 0 slotOffset fun head =>
    s.memRead bodyOffset (len - bodyOffset) fun body =>
    let d := md5 (head ++ s.token.toList ++ body)
    if d.toList ≠ c then .raised .checksum 0x21 s
    else if len - bodyOffset = 0 then .raised .emptyBody 0x21 s
    else .complete ((s.setDigest d).setBlen (len - bodyOffset))

/-- FENC (R192): serialize the header and compute the checksum. -/
def execFenc (s : State) : Host.Outcome State Fault Refusal := (runFenc s).finish

/-- FDEC (R193): verify a frame's checksum and expose its body. -/
def execFdec (s : State) : Host.Outcome State Fault Refusal := (runFdec s).finish

end Sys2Proof.Machine
end

