-- ==== Sys2Proof/Machine/Hash.lean ====
section
/-! DEFINITION. The hash command MD5 (spec/40_md5.md R118). -/

namespace Sys2Proof.Machine

/-- The pseudocode of MD5 (R118). -/
def runMd5 (s : State) : CmdEnd :=
  if s.hashPastEnd then .raised .range 0x01 s
  else s.memRead s.hoff.toNat s.hlen.toNat fun m => .complete (s.setDigest (md5 m))

/-- MD5 (R118): hash `DBUF[HOFF .. HOFF+HLEN-1]` into DIGEST. -/
def execMd5 (s : State) : Host.Outcome State Fault Refusal := (runMd5 s).finish

end Sys2Proof.Machine
end

