-- ==== Sys2Proof/Machine/Sequence.lean ====
section
/-! DEFINITION. The sequence commands NOP, SENT, STRIP and the composites SEAL and OPEN
(spec/43_sequence.md R220 to R224). -/

namespace Sys2Proof.Machine

/-- The branch of R221 that appends the sentinel to a body of `len` bytes. -/
def appendSentinel (s : State) (len : Nat) : CmdEnd :=
  if s.dbufBytes < bodyOffset + len + 1 then .raised .bufOvf 0x30 s
  else s.memWrite (bodyOffset + len) [0x00] fun s => .complete (s.setBlen (len + 1))

/-- The pseudocode of SENT (R221): the sentinel is absent when the body is empty or does not end in
0x00 (D21). -/
def runSent (s : State) : CmdEnd :=
  let len := s.bodyLen
  if s.bodyPastEnd then .raised .range 0x30 s
  else if len = 0 then appendSentinel s len
  else s.memRead (bodyOffset + len - 1) 1 fun last =>
    if last.getD 0 0 ≠ 0x00 then appendSentinel s len else .complete s

/-- The pseudocode of STRIP (R222): one trailing 0x00 is removed if there is one (D20). -/
def runStrip (s : State) : CmdEnd :=
  let len := s.bodyLen
  if s.bodyPastEnd then .raised .range 0x31 s
  else if len = 0 then .complete s
  else s.memRead (bodyOffset + len - 1) 1 fun last =>
    if last.getD 0 0 = 0x00 then .complete (s.setBlen (len - 1)) else .complete s

/-- The pseudocode of SEAL (R223): SENT, PAD, ENC, FENC after the key check. -/
def runSeal (s : State) : CmdEnd :=
  if !s.keyv then .raised .noKey 0x40 s
  else (((runSent s).andThen runPad).andThen runEnc).andThen runFenc

/-- The pseudocode of OPEN (R224): FDEC, DEC, UNPAD, STRIP after the key check. -/
def runOpen (s : State) : CmdEnd :=
  if !s.keyv then .raised .noKey 0x41 s
  else (((runFdec s).andThen runDec).andThen runUnpad).andThen runStrip

/-- NOP (R220): nothing but completion. -/
def execNop (s : State) : Host.Outcome State Fault Refusal := (CmdEnd.complete s).finish

/-- SENT (R221): append the 0x00 sentinel if absent. -/
def execSent (s : State) : Host.Outcome State Fault Refusal := (runSent s).finish

/-- STRIP (R222): remove the trailing 0x00 sentinel. -/
def execStrip (s : State) : Host.Outcome State Fault Refusal := (runStrip s).finish

/-- SEAL (R223): payload to frame. -/
def execSeal (s : State) : Host.Outcome State Fault Refusal := (runSeal s).finish

/-- OPEN (R224): frame to payload. -/
def execOpen (s : State) : Host.Outcome State Fault Refusal := (runOpen s).finish

end Sys2Proof.Machine
end

