-- ==== Sys2Proof/Machine/Dispatch.lean ====
section
/-! DEFINITION. One arm per command: the engine step that performs it (spec/10_state.md R45). -/

namespace Sys2Proof.Machine

def exec (i : Instr) (s : State) : Host.Outcome State Fault Refusal :=
  match i with
  | .nop => Sys2Proof.Machine.execNop s
  | .md5 => Sys2Proof.Machine.execMd5 s
  | .derive => Sys2Proof.Machine.execDerive s
  | .pad => Sys2Proof.Machine.execPad s
  | .unpad => Sys2Proof.Machine.execUnpad s
  | .enc => Sys2Proof.Machine.execEnc s
  | .dec => Sys2Proof.Machine.execDec s
  | .fenc => Sys2Proof.Machine.execFenc s
  | .fdec => Sys2Proof.Machine.execFdec s
  | .sent => Sys2Proof.Machine.execSent s
  | .strip => Sys2Proof.Machine.execStrip s
  | .sealFrame => Sys2Proof.Machine.execSeal s
  | .openFrame => Sys2Proof.Machine.execOpen s

end Sys2Proof.Machine
end

