-- ==== Sys2Proof/Machine/Engine.lean ====
section
/-! DEFINITION. The engine agent (spec/10_state.md R21, R45): its one step fetches the pending command word
from the CMD latch, decodes it and performs it whole. -/

namespace Sys2Proof.Machine

/-- The command word the engine performs: the one latched at acceptance (R45, spec/20_memory.md R75). -/
def State.fetchWord (s : State) : Word := s.cmd

/-- The engine step of an illegal word (spec/30_encoding.md R92): nothing is written but the completion
with ILLEGAL_CMD, `OP` being bits 7..0 of the word. -/
def execIllegal (w : Word) (s : State) : Host.Outcome State Fault Refusal :=
  (CmdEnd.raised .illegalCmd (opcField w) s).finish

/-- The engine step while a command is pending (R45). -/
def engineStep (s : State) : Host.Outcome State Fault Refusal :=
  match decode s.fetchWord with
  | .ok i => exec i s
  | .error _ => execIllegal s.fetchWord s

/-- The engine's turn: its step is enabled only while BUSY = 1; it performs nothing by itself
(spec/70_reset_and_hazards.md R292). -/
def engineTurn (s : State) : Host.Outcome State Fault Refusal :=
  if s.busy then engineStep s else .next s

/-- The state in which the engine's next turn, the very next turn of the agenda, performs the command
word `w`: the word accepted as R45 says, and an engine turn in front of the agenda. -/
def State.presentCommand (s : State) (w : Word) : State :=
  (s.accept w).setAgenda (.engine :: s.agenda)

end Sys2Proof.Machine
end

