-- ==== Sys2Proof/Machine/Flags.lean ====
section
/-! DEFINITION. The control registers as the words a host reads: CTRL, STATUS and ERRINFO
(spec/10_state.md R26, R28, R29), the interrupt output (R43), and the error numbers and their categories
(spec/60_exceptions.md R251, R252). There are no arithmetic condition codes (R41). -/

namespace Sys2Proof.Machine

/-- A flag as bit `n` of a register. -/
def flagBit (b : Bool) (n : Nat) : Word := if b then BitVec.ofNat 32 (2 ^ n) else 0

/-- The interrupt output `irq = CTRL.IE & (STATUS.DONE | STATUS.ERR)`, level-sensitive (R43). -/
def State.irq (s : State) : Bool := s.ie && (s.done || s.err)

/-- CTRL as it reads: IE on bit 0, SRST and the reserved bits 0 (R26). -/
def State.ctrlWord (s : State) : Word := flagBit s.ie 0

/-- STATUS as it reads: BUSY, DONE, ERR, KEYV, OVR, IRQ on bits 0 to 5, the rest 0 (R28). -/
def State.statusWord (s : State) : Word :=
  flagBit s.busy 0 ||| flagBit s.done 1 ||| flagBit s.err 2 ||| flagBit s.keyv 3
    ||| flagBit s.ovr 4 ||| flagBit s.irq 5

/-- The number of an error code (R251). -/
def errNumber : ErrCode → Byte
  | .none => 0x00
  | .illegalCmd => 0x01
  | .noKey => 0x02
  | .range => 0x03
  | .emptyInput => 0x04
  | .bufOvf => 0x05
  | .align => 0x06
  | .badPad => 0x07
  | .shortFrame => 0x08
  | .checksum => 0x09
  | .emptyBody => 0x0A
  | .lenOvf => 0x0B

/-- ERRINFO as it reads: CODE on bits 7..0, OP on bits 15..8, the rest 0 (R29). -/
def State.errinfoWord (s : State) : Word := (0 : BitVec 16) ++ s.errOp ++ errNumber s.errCode

/-- The document's error categories, and the spec's own CommandError (R252). -/
inductive Category where
  | protocolError
  | integrityError
  | cryptoError
  | emptyResponseError
  | commandError
  deriving DecidableEq, Repr

/-- The category of each code; NONE has none (R252). -/
def errCategory : ErrCode → Option Category
  | .none => .none
  | .shortFrame => some .protocolError
  | .checksum => some .integrityError
  | .badPad => some .cryptoError
  | .align => some .cryptoError
  | .emptyBody => some .emptyResponseError
  | .illegalCmd => some .commandError
  | .noKey => some .commandError
  | .range => some .commandError
  | .emptyInput => some .commandError
  | .bufOvf => some .commandError
  | .lenOvf => some .commandError

end Sys2Proof.Machine
end

