-- ==== Sys2Proof/Machine/HostPort.lean ====
section
/-! DEFINITION. The host port: the register window (spec/10_state.md R24 to R40), which accesses it
permits (spec/20_memory.md R63 to R66, spec/70_reset_and_hazards.md R294), and what each access does
(R61, R68). -/

namespace Sys2Proof.Machine

/-- What stands at an offset of the register window (R24). -/
inductive Region where
  /-- ID, 0x000 (R25). -/
  | id
  /-- CTRL, 0x004 (R26). -/
  | ctrl
  /-- CMD, 0x008 (R27). -/
  | cmd
  /-- STATUS, 0x00C (R28). -/
  | status
  /-- ERRINFO, 0x010 (R29). -/
  | errinfo
  /-- An operand register, 0x014 to 0x028 (R30 to R35). -/
  | operand (r : OpReg)
  /-- Reserved: 0x02C to 0x03F and 0x080 to 0xFFFF (R40). -/
  | reserved
  /-- TOKEN byte `i`, at 0x040 + i (R36). -/
  | token (i : Nat)
  /-- KEY byte `i`, at 0x050 + i (R37). -/
  | key (i : Nat)
  /-- IV byte `i`, at 0x060 + i (R38). -/
  | iv (i : Nat)
  /-- DIGEST byte `i`, at 0x070 + i (R39). -/
  | digest (i : Nat)
  /-- DBUF index `i`, at 0x10000 + i (spec/20_memory.md R60). -/
  | dbuf (i : Nat)
  deriving DecidableEq, Repr

/-- The register of a 32-bit register offset, `j` being its word index `off / 4` below 16 (R24). -/
def wordRegion (j : Nat) : Region :=
  match j with
  | 0 => .id
  | 1 => .ctrl
  | 2 => .cmd
  | 3 => .status
  | 4 => .errinfo
  | 5 => .operand .blen
  | 6 => .operand .flen
  | 7 => .operand .hoff
  | 8 => .operand .hlen
  | 9 => .operand .devid
  | 10 => .operand .stamp
  | _ => .reserved

/-- What stands at an offset (R24). -/
def regionOf (off : Nat) : Region :=
  if off < 0x40 then wordRegion (off / 4)
  else if off < 0x50 then .token (off - 0x40)
  else if off < 0x60 then .key (off - 0x50)
  else if off < 0x70 then .iv (off - 0x60)
  else if off < 0x80 then .digest (off - 0x70)
  else if off < 0x10000 then .reserved
  else .dbuf (off - 0x10000)

/-- Data state: what no host may touch while a command is pending (R294). -/
def Region.isData : Region → Bool
  | .id => false
  | .ctrl => false
  | .cmd => false
  | .status => false
  | .errinfo => false
  | .operand _ => true
  | .reserved => false
  | .token _ => true
  | .key _ => true
  | .iv _ => true
  | .digest _ => true
  | .dbuf _ => true

/-- The number of bytes of a width (R61). -/
def widthBytes : Width → Nat
  | .w8 => 1
  | .w16 => 2
  | .w32 => 4

/-- The alignment and width rules (R63, R64): an access is aligned to its width, and the 32-bit
registers and the gap after them take 32-bit accesses only. -/
def shapeOk (w : Width) (off : Nat) : Bool :=
  off % widthBytes w == 0 && (decide (0x40 ≤ off) || w == .w32)

/-- The access lies in the implemented buffer, if it is one to the DBUF window (R65). An offset
past the 17-bit register window is past the buffer too (assumption log entry 10). -/
def insideDbuf (s : State) (w : Width) (off : Nat) : Bool :=
  decide (off < 0x10000) || decide (off - 0x10000 + widthBytes w ≤ s.dbufBytes)

/-- Whether the port performs an access; otherwise it answers with a bus error (R66). -/
def permitted (s : State) (w : Width) (off : Nat) : Bool :=
  shapeOk w off && insideDbuf s w off && !(s.busy && (regionOf off).isData)

/-- The bytes `i .. i+n-1` of a 16-byte register. -/
def blockBytesAt (b : Block) (i n : Nat) : List Byte := (b.toList.drop i).take n

/-- The data of a permitted read of width `w` (R61): a 32-bit register as one number, a byte region on
little-endian lanes. TOKEN and the reserved offsets read as 0 (R36, R40). No read has a side effect
(R68). -/
def readRegion (s : State) (w : Width) : Region → Word
  | .id => idValue
  | .ctrl => s.ctrlWord
  | .cmd => s.cmd
  | .status => s.statusWord
  | .errinfo => s.errinfoWord
  | .operand r => s.opReg r
  | .reserved => 0
  | .token _ => 0
  | .key i => leWord (blockBytesAt s.key i (widthBytes w))
  | .iv i => leWord (blockBytesAt s.iv i (widthBytes w))
  | .digest i => leWord (blockBytesAt s.digest i (widthBytes w))
  | .dbuf i => leWord (s.peek i (widthBytes w))

/-- The effect of a permitted write of width `w` (R68): the lanes stored, and the side effects of CMD,
CTRL, STATUS and TOKEN. A write to a read-only register or a reserved offset is ignored. -/
def writeRegion (s : State) (w : Width) (v : Word) : Region → State
  | .id => s
  | .ctrl => s.writeCtrl v
  | .cmd => s.writeCmd v
  | .status => s.writeStatus v
  | .errinfo => s
  | .operand r => s.setOpReg r v
  | .reserved => s
  | .token i => s.writeToken i ((leBytes v).take (widthBytes w))
  | .key _ => s
  | .iv _ => s
  | .digest _ => s
  | .dbuf i => s.poke i ((leBytes v).take (widthBytes w))

/-- The answer of the host port to an access (R66). -/
def answerOf (a : Access) (s : State) : Answer :=
  match a with
  | .read w off =>
    if permitted s w off then .data (readRegion s w (regionOf off)) else .busError
  | .write w off _ => if permitted s w off then .written else .busError

/-- What an access leaves of the state: a read changes nothing (R68), a refused access changes nothing
(R66). -/
def applyAccess (a : Access) (s : State) : State :=
  match a with
  | .read _ _ => s
  | .write w off v =>
    if permitted s w off then writeRegion s w v (regionOf off) else s

/-- One access of a host, whole: its effect, and its answer on the record. -/
def hostAccess (a : Access) (s : State) : State := (applyAccess a s).addAnswer (answerOf a s)

end Sys2Proof.Machine
end

