-- ==== Sys2Proof/Machine/HostProgram.lean ====
section
/-! DEFINITION. The host agent that runs a host program (spec/30_encoding.md R95, R96;
spec/70_reset_and_hazards.md R302): each line is one step, an access or a branch. -/

namespace Sys2Proof.Machine

/-- The offset of CMD (spec/10_state.md R24). -/
def cmdOffset : Nat := 0x008

/-- The offset of STATUS (spec/10_state.md R24). -/
def statusOffset : Nat := 0x00C

/-- `cmd MNEMONIC` (R95): a 32-bit write of the command word to CMD. -/
def cmdLine (i : Instr) : Line := .wr .w32 cmdOffset (encode i)

/-- `wait` (R96): poll until BUSY = 0, under a label and a name of the caller's choice. -/
def waitLines (target name : String) : List Line :=
  [.label target, .rd .w32 statusOffset name, .bnz name 0x1 target]

/-- `run MNEMONIC` (R96). -/
def runLines (i : Instr) (target name : String) : List Line := cmdLine i :: waitLines target name

/-- One `wr8` per byte, from the offset `off` on. -/
def writeBytewise : Nat → List Byte → List Line
  | _, [] => []
  | off, b :: bs => .wr .w8 off (b.setWidth 32) :: writeBytewise (off + 1) bs

/-- One `wr32` per whole 4-byte group, then one `wr8` per remaining byte. -/
def writeWordwise : Nat → List Byte → List Line
  | off, b0 :: b1 :: b2 :: b3 :: bs =>
    .wr .w32 off (leWord [b0, b1, b2, b3]) :: writeWordwise (off + 4) bs
  | off, bs => writeBytewise off bs

/-- `wrbytes OFF, HEX` (R96): words when `OFF` is 4-aligned, else bytes. -/
def wrbytes (off : Nat) (bs : List Byte) : List Line :=
  if off % 4 = 0 then writeWordwise off bs else writeBytewise off bs

/-- Two hexadecimal digits per byte, high nibble first, the first pair being byte 0 (R96, G4); an odd
digit at the end is no byte. -/
def hexBytes : List (BitVec 4) → List Byte
  | hi :: lo :: ds => (hi ++ lo) :: hexBytes ds
  | _ => []

/-- `settoken HEX32` (R96). -/
def settoken (digits : List (BitVec 4)) : List Line := wrbytes 0x040 (hexBytes digits)

/-- `setbody HEX` (R96). The offsets do not wrap and the length is written modulo 2^32 (assumption log entry
10). -/
def setbody (bs : List Byte) : List Line :=
  wrbytes 0x10020 bs ++ [.wr .w32 0x014 (BitVec.ofNat 32 bs.length)]

/-- `setframe HEX` (R96), as `setbody`. -/
def setframe (bs : List Byte) : List Line :=
  wrbytes 0x10000 bs ++ [.wr .w32 0x018 (BitVec.ofNat 32 bs.length)]

/-- `clear` (R96): W1C of DONE, ERR and OVR. -/
def clearLine : Line := .wr .w32 statusOffset 0x16

/-- The index of the first line at or after `pos` that is a step: labels are positions, not steps (R95). -/
def skipLabels : List Line → Nat → Nat
  | .label _ :: rest, pos => skipLabels rest (pos + 1)
  | _, pos => pos

/-- The index of the line the program executes next. -/
def HostProgram.nextPos (h : HostProgram) : Nat := skipLabels (h.lines.drop h.pos) h.pos

/-- The line the program executes next; none when it has executed its last line. -/
def HostProgram.nextLine (h : HostProgram) : Option Line := h.lines[h.nextPos]?

/-- The position of a label (R95). -/
def labelPos (lines : List Line) (name : String) : Option Nat :=
  lines.findIdx? fun l => decide (l = .label name)

/-- The value last read under a name. -/
def valueOf (values : List (String × Word)) (name : String) : Option Word :=
  (values.find? fun v => decide (v.1 = name)).map Prod.snd

/-- The program stopped as a faulted run (R302). -/
def HostProgram.stop (h : HostProgram) : HostProgram := { h with faulted := true }

/-- The program at the position `pos`. -/
def HostProgram.goto (h : HostProgram) (pos : Nat) : HostProgram := { h with pos := pos }

/-- The program after an access line answered with `a`: a bus error is a fault of the program (R66), the
data of a read gets its name. -/
def HostProgram.afterAccess (h : HostProgram) (a : Answer) (name : Option String) : HostProgram :=
  match a with
  | .busError => h.stop
  | .written => h.goto (h.nextPos + 1)
  | .data v =>
    match name with
    | some n => { h with pos := h.nextPos + 1, values := (n, v) :: h.values }
    | .none => h.goto (h.nextPos + 1)

/-- The program after a branch line (R95): `taken` says for a tested value whether the branch goes to its
label. A name that was never read or a label that is nowhere gives the line no meaning: the program
stops (assumption log entry 4). -/
def HostProgram.afterBranch (h : HostProgram) (taken : Word → Bool) (name target : String) :
    HostProgram :=
  match valueOf h.values name with
  | .none => h.stop
  | some v =>
    if taken v then
      match labelPos h.lines target with
      | .none => h.stop
      | some p => h.goto p
    else h.goto (h.nextPos + 1)

/-- An access line: one access at the port, then the program goes on with the answer. -/
def lineAccess (a : Access) (name : Option String) (s : State) : State :=
  (hostAccess a s).setHost (s.host.afterAccess (answerOf a s) name)

/-- One line of the host program, one step (R95). -/
def hostLine (l : Line) (s : State) : State :=
  match l with
  | .wr w off v => lineAccess (.write w off v) .none s
  | .rd w off n => lineAccess (.read w off) (some n) s
  | .label _ => s.setHost (s.host.goto (s.host.nextPos + 1))
  | .bnz n m t => s.setHost (s.host.afterBranch (fun v => decide (v &&& m ≠ 0)) n t)
  | .bz n m t => s.setHost (s.host.afterBranch (fun v => decide (v &&& m = 0)) n t)

/-- The host program can execute a line: it is not a faulted run and has a line left (R302). -/
def HostProgram.runnable (h : HostProgram) : Bool := !h.faulted && h.nextLine.isSome

/-- The host program's turn; a program that is at its end or faulted does nothing. -/
def lineTurn (s : State) : State :=
  match s.host.faulted, s.host.nextLine with
  | false, some l => hostLine l s
  | _, _ => s

/-- The state with a host program to run from its first line. -/
def State.loadProgram (s : State) (lines : List Line) : State :=
  s.setHost ⟨lines, 0, [], false⟩

end Sys2Proof.Machine
end

