-- ==== Sys2Proof/Machine/Turns.lean ====
section
/-! DEFINITION. The turns of the agents (spec/10_state.md R21, spec/20_memory.md R71): host accesses one at
a time in port order, the engine step of a command between two of them, and reset at any time. -/

namespace Sys2Proof.Machine

/-- What one turn does. -/
def takeTurn (t : Turn) (s : State) : Host.Outcome State Fault Refusal :=
  match t with
  | .engine => engineTurn s
  | .line => .next (lineTurn s)
  | .access a => .next (hostAccess a s)
  | .reset => .next s.hardReset

/-- The turn that follows when the agenda says nothing: a pending command is performed, else the host
program goes on, else nothing happens (the schedule of spec/95_test_vectors.md Part 3; fair to the engine,
spec/70_reset_and_hazards.md R301). -/
def defaultTurn (s : State) : Option Turn :=
  if s.busy then some .engine
  else if s.host.runnable then some .line
  else none

/-- The next turn, and the state whose agenda no longer holds it; none when the machine is idle. -/
def nextTurn (s : State) : Option (Turn × State) :=
  match s.agenda with
  | t :: ts => some (t, s.setAgenda ts)
  | [] => (defaultTurn s).map fun t => (t, s)

end Sys2Proof.Machine
end

