-- ==== Sys2Proof/Machine/Step.lean ====
section
/-! DEFINITION. One step of the machine: the next turn; and the state that presents an instruction to the
engine. -/

namespace Sys2Proof.Machine

/-- One step: the next turn is taken; an idle machine stays as it is (spec/70_reset_and_hazards.md R292). -/
def step (s : State) : Host.Outcome State Fault Refusal :=
  match nextTurn s with
  | some (t, s') => takeTurn t s'
  | none => .next s

/-- The state with the command word of the `nbits` bits `w` accepted and an engine turn next, so that the
very next step performs it. It stands for the host's CMD write (assumption log entry 5). -/
def State.withFetchWord (s : State) (nbits w : Nat) : State :=
  s.presentCommand (BitVec.ofNat 32 (w % 2 ^ nbits))

end Sys2Proof.Machine
end

