-- ==== Sys2Proof/WellFormed.lean ====
section
/-! DEFINITION. What well-formed syntax is. A command has no operand field, so a term of `Instr` is always
well-formed (spec/30_encoding.md R93); what can be ill-formed is a command word (R90, R92) and a host
program (R95). -/

namespace Sys2Proof

/-- The opcodes that R92 lists as not in the table. -/
def unassigned (opc : Nat) : Bool :=
  (0x02 ≤ opc && opc ≤ 0x0F) || (0x15 ≤ opc && opc ≤ 0x1F) || (0x22 ≤ opc && opc ≤ 0x2F)
    || (0x32 ≤ opc && opc ≤ 0x3F) || (0x42 ≤ opc && opc ≤ 0xFF)

/-- Check of a command word: `RSV`, bits 31..8, is 0 (R90). -/
def rsvZero (w : Word) : Bool := w.toNat / 256 == 0

/-- Check of a command word: `OPC`, bits 7..0, is assigned (R92). -/
def opcAssigned (w : Word) : Bool := !unassigned (w.toNat % 256)

/-- A word that is one of the 13 commands (R92: every other word is illegal). -/
def commandWordWf (w : Word) : Bool := rsvZero w && opcAssigned w

/-- A command has no operand field, so nothing in it can be ill-formed (R93). -/
abbrev Instr.WellFormed (_ : Instr) : Prop := True

/-- The label a line defines. -/
def Line.labelName : Line → Option String
  | .label n => some n
  | _ => none

/-- The name a line gives a value to. -/
def Line.valueName : Line → Option String
  | .rd _ _ n => some n
  | _ => none

/-- The name and the label a branch line uses. -/
def Line.branchUse : Line → Option (String × String)
  | .bnz n _ t => some (n, t)
  | .bz n _ t => some (n, t)
  | _ => none

/-- Check of a host program: no label is defined twice (R95: a label is a position). -/
def labelsDistinct (p : List Line) : Bool := decide (p.filterMap Line.labelName).Nodup

/-- Check of a host program: every branch goes to a label of the program (R95). -/
def branchesResolve (p : List Line) : Bool :=
  (p.filterMap Line.branchUse).all fun u => (p.filterMap Line.labelName).contains u.2

/-- Check of a host program: every branch tests a name that some read line of the program gives a value
(R95). -/
def branchNamesRead (p : List Line) : Bool :=
  (p.filterMap Line.branchUse).all fun u => (p.filterMap Line.valueName).contains u.1

/-- A well-formed host program. -/
def hostProgramWf (p : List Line) : Bool :=
  labelsDistinct p && branchesResolve p && branchNamesRead p

end Sys2Proof
end

