-- ==== Sys2Proof/Safety.lean ====
section
/-! DEFINITION. What the claims are said in: the invariant of the machine, how a command ends as seen from
its start state, what a command stores, the frame in the spec's own layout, which accesses the port
refuses, and when a host program's run has ended or is faulted. -/

namespace Sys2Proof.Machine

/-- The written bytes of DBUF are one canonical list inside the buffer. -/
abbrev State.MemoryOk (s : State) : Prop := s.dbuf.wf = true ∧ s.dbuf.within s.dbufBytes = true

/-- DONE and ERR are never both 1 (spec/10_state.md R28). -/
abbrev State.OneResult (s : State) : Prop := ¬(s.done = true ∧ s.err = true)

/-- While a command is pending, acceptance's DONE = ERR = 0 and ERRINFO = 0 still stand (R45). -/
abbrev State.PendingClean (s : State) : Prop :=
  s.busy = true → s.done = false ∧ s.err = false ∧ s.errCode = .none ∧ s.errOp = 0

/-- ERR = 1 comes with a named code, DONE = 1 with ERRINFO = 0 (R29, spec/60_exceptions.md R251). -/
abbrev State.ErrorNamed (s : State) : Prop :=
  (s.err = true → s.errCode ≠ .none) ∧ (s.done = true → s.errCode = .none ∧ s.errOp = 0)

/-- While KEYV = 1, KEY and IV are those of the present TOKEN (R36 to R38, spec/41_cipher.md R148). -/
abbrev State.KeysDerived (s : State) : Prop :=
  s.keyv = true → s.key = md5 s.token.toList ∧ s.iv = md5 (s.key.toList ++ s.token.toList)

/-- The invariant of the machine. -/
structure State.Inv (s : State) : Prop where
  memory : s.MemoryOk
  oneResult : s.OneResult
  pending : s.PendingClean
  errorNamed : s.ErrorNamed
  keys : s.KeysDerived

/-- `s` after a command of it ended in the error `code`, `op`: STATUS and ERRINFO are written as
spec/60_exceptions.md R250 says and nothing else is (R256). -/
def State.failed (s : State) (code : ErrCode) (op : Byte) : State :=
  { s with busy := false, err := true, errCode := code, errOp := op }

/-- DBUF of `t` is DBUF of `s` with the bytes `bs` at `a`, `a + 1`, …: every other byte reads as before. -/
def State.Stores (s t : State) (a : Nat) (bs : List Byte) : Prop :=
  ∀ i, t.byte i = if a ≤ i ∧ i < a + bs.length then bs.getD (i - a) 0 else s.byte i

/-- Every byte of DBUF reads the same in both states. -/
def State.SameDbuf (s t : State) : Prop := ∀ i, t.byte i = s.byte i

/-- The command `i`, accepted in `s` and performed, completes successfully and leaves `t` (R45). -/
def Completes (i : Instr) (s t : State) : Prop :=
  exec i (s.accept (encode i)) = .next t ∧ t.done = true ∧ t.err = false

/-- The body `p` with the sentinel appended if it is absent (spec/43_sequence.md R221). -/
def withSentinel (p : List Byte) : List Byte :=
  if p = [] ∨ p.getLastD 0x00 ≠ 0x00 then p ++ [0x00] else p

/-- The body `p` with one trailing sentinel removed if there is one (R222). -/
def withoutSentinel (p : List Byte) : List Byte :=
  if p ≠ [] ∧ p.getLastD 0x00 = 0x00 then p.dropLast else p

/-- The body `p` with its PKCS7 padding (spec/41_cipher.md R149). -/
def withPadding (p : List Byte) : List Byte := p ++ padBytes (padLength p.length)

/-- The claimed pad length of a padded body: its last byte (R150). -/
def claimedPad (p : List Byte) : Nat := (p.getLastD 0x00).toNat

/-- The document's unpad conditions hold (R150): `1 <= n <= len`, whole blocks, the last `n` bytes all
`n`. -/
abbrev GoodPadding (p : List Byte) : Prop :=
  claimedPad p ≠ 0 ∧ claimedPad p ≤ p.length ∧ p.length % 16 = 0 ∧
    p.drop (p.length - claimedPad p) = List.replicate (claimedPad p) (BitVec.ofNat 8 (claimedPad p))

/-- Bytes 0 to 15 of a frame of `len` bytes (spec/42_frame.md R190). -/
def frameHead (len : Nat) (devid stamp : Word) : List Byte :=
  [0x21, 0x31] ++ be16 len ++ [0x00, 0x00, 0x00, 0x00] ++ be32 devid ++ be32 stamp

/-- The digest FENC computes for a body: `md5` of the frame with the token in its checksum slot (R191). -/
def frameDigest (devid stamp : Word) (token : Block) (body : List Byte) : Block :=
  md5 (frameHead (32 + body.length) devid stamp ++ token.toList ++ body)

/-- The header FENC writes: 32 bytes (R190). -/
def frameHeader (devid stamp : Word) (token : Block) (body : List Byte) : List Byte :=
  frameHead (32 + body.length) devid stamp ++ (frameDigest devid stamp token body).toList

/-- A frame is well-formed for a token (R191): its slot is `md5` of its checksum image. -/
abbrev WellFormedFrame (f : List Byte) (t : Block) : Prop :=
  (f.drop 16).take 16 = (md5 (f.take 16 ++ t.toList ++ f.drop 32)).toList

/-- `md5` of the checksum image of the frame `DBUF[0 .. FLEN-1]` (R191). -/
def State.imageDigest (s : State) : Block :=
  md5 (s.peek 0 16 ++ s.token.toList ++ s.peek 32 (s.flen.toNat - 32))

/-- Data state by its offsets: the operand registers, TOKEN, KEY, IV, DIGEST and the DBUF window
(spec/70_reset_and_hazards.md R294). -/
abbrev DataOffset (off : Nat) : Prop :=
  (0x014 ≤ off ∧ off < 0x02C) ∨ (0x040 ≤ off ∧ off < 0x080) ∨ 0x10000 ≤ off

/-- The accesses the port refuses (spec/20_memory.md R63, R64, R65; R294). -/
abbrev RefusedAccess (s : State) (w : Width) (off : Nat) : Prop :=
  off % widthBytes w ≠ 0 ∨ (off < 0x040 ∧ w ≠ .w32) ∨
    (0x10000 ≤ off ∧ s.dbufBytes < off - 0x10000 + widthBytes w) ∨
    (s.busy = true ∧ DataOffset off)

/-- A byte region of 16 bytes at the offset `base` reads as `b` at each width: the byte at offset `A + j`
travels on data bits `8j+7 .. 8j` (spec/20_memory.md R61). -/
def State.ReadsBytes (s : State) (base : Nat) (b : Block) : Prop :=
  (∀ j : Fin 16, answerOf (.read .w8 (base + j.val)) s = .data (b[j].setWidth 32)) ∧
  (∀ j : Fin 8, answerOf (.read .w16 (base + 2 * j.val)) s =
    .data (b[2 * j.val].setWidth 32 ||| b[2 * j.val + 1].setWidth 32 <<< 8)) ∧
  ∀ j : Fin 4, answerOf (.read .w32 (base + 4 * j.val)) s =
    .data (b[4 * j.val].setWidth 32 ||| b[4 * j.val + 1].setWidth 32 <<< 8 |||
      b[4 * j.val + 2].setWidth 32 <<< 16 ||| b[4 * j.val + 3].setWidth 32 <<< 24)

/-- The host program's next line is `l`, at index `k`: only labels stand before it, and labels are no steps
(spec/30_encoding.md R95). -/
def HostProgram.StandsAt (h : HostProgram) (k : Nat) (l : Line) : Prop :=
  h.pos ≤ k ∧ h.lines[k]? = some l ∧ l.labelName = none ∧
    ∀ j, h.pos ≤ j → j < k → ∃ n, h.lines[j]? = some (.label n)

/-- The value `v` was the last one read under the name `n`: later reads have other names. -/
def HostProgram.LastRead (h : HostProgram) (n : String) (v : Word) : Prop :=
  ∃ later earlier, h.values = later ++ (n, v) :: earlier ∧ ∀ x ∈ later, x.1 ≠ n

/-- The label `n` stands at index `p`, and nowhere before it. -/
def HostProgram.LabelAt (h : HostProgram) (n : String) (p : Nat) : Prop :=
  h.lines[p]? = some (.label n) ∧ ∀ q, q < p → h.lines[q]? ≠ some (.label n)

/-- A host program's run has ended (R302): its last line is executed and no command is pending. -/
def State.RunEnded (s : State) : Prop :=
  s.host.faulted = false ∧ s.host.nextLine = none ∧ s.busy = false

/-- A host program's run is a faulted run (R302). -/
def State.RunFaulted (s : State) : Prop := s.host.faulted = true

end Sys2Proof.Machine
end

