-- ==== Sys2Proof/Certificates/Slice0/Obligations.lean ====
section
/-! DEFINITION. The statements about the machine, each from a rule of spec/. Nothing is proved here. A
statement that an instruction completes gives the whole next state: `{ t with dbuf := s.dbuf } = …` fixes
every register, `Stores` and `SameDbuf` fix every byte of DBUF. -/

open Sys2Proof Sys2Proof.Machine

section Encoding

/-- R91: decoding is the lookup of the whole word in the opcode table. -/
def Obligations.DecodeIsTheOpcodeTable : Prop :=
  ∀ (w : Word) (i : Instr), decode w = .ok i ↔
    (w.toNat, i) ∈ [(0x00, Instr.nop), (0x01, .md5), (0x10, .derive), (0x11, .pad), (0x12, .unpad),
      (0x13, .enc), (0x14, .dec), (0x20, .fenc), (0x21, .fdec), (0x30, .sent), (0x31, .strip),
      (0x40, .sealFrame), (0x41, .openFrame)]

/-- The decoder and the encoder agree, for every command and every 32-bit word: a word decodes to a command
exactly when it is the word the encoder writes for it, so no bit of a word is dropped. -/
def Obligations.DecodeAndEncodeAgree : Prop :=
  ∀ (i : Instr) (w : Word), decode w = .ok i ↔ w = encode i

/-- R92: the illegal words are exactly the listed ones; such a word is accepted like any command, and its
engine step writes nothing but the completion with ILLEGAL_CMD and `OP = w[7:0]`. -/
def Obligations.IllegalWordsCompleteInError : Prop :=
  ∀ w : Word,
    ((∃ r, decode w = .error r) ↔ commandWordWf w = false) ∧
    (commandWordWf w = false → ∀ s : State,
      (s.busy = false → applyAccess (.write .w32 0x008 w) s = s.accept w) ∧
      (s.busy = true → s.cmd = w → engineTurn s = .next (s.failed .illegalCmd (w.extractLsb' 0 8))))

/-- R98: the worked encodings, and ERRINFO after the two illegal words, from every state. -/
def Obligations.WorkedEncodings : Prop :=
  encode .sealFrame = 0x00000040 ∧ encode .openFrame = 0x00000041 ∧
    decode 0x00000040 = .ok .sealFrame ∧ decode 0x00000041 = .ok .openFrame ∧
    decode 0x00000140 = .error .reservedBits ∧ rsvField 0x00000140 = 0x000001 ∧
    decode 0x00000015 = .error .unassignedOpcode ∧
    ∀ s : State,
      (∃ t, engineTurn (s.accept 0x00000140) = .next t ∧ t.errinfoWord = 0x00004001) ∧
      (∃ t, engineTurn (s.accept 0x00000015) = .next t ∧ t.errinfoWord = 0x00001501)

/-- Words written out bit by bit from R90 and R91, at least one of each family, decode to their commands. -/
def Obligations.WrittenOutWordsDecode : Prop :=
  decode 0b00000000000000000000000000000000 = .ok .nop ∧
    decode 0b00000000000000000000000000000001 = .ok .md5 ∧
    decode 0b00000000000000000000000000010000 = .ok .derive ∧
    decode 0b00000000000000000000000000010011 = .ok .enc ∧
    decode 0b00000000000000000000000000100001 = .ok .fdec ∧
    decode 0b00000000000000000000000000110001 = .ok .strip ∧
    decode 0b00000000000000000000000001000000 = .ok .sealFrame

end Encoding

section Lifecycle

/-- The pending command word is decoded and performed by a step: when the engine's turn comes, when the
agenda is empty, and when the word was put there by `withFetchWord`. That turns come from an agenda is the
model's choice (assumption log entries 3 and 5). -/
def Obligations.StepRunsDecodedCommand : Prop :=
  ∀ (s : State) (i : Instr),
    (∀ ts, s.agenda = .engine :: ts → s.busy = true → decode s.cmd = .ok i →
      step s = exec i { s with agenda := ts }) ∧
    (s.agenda = [] → s.busy = true → decode s.cmd = .ok i → step s = exec i s) ∧
    (∀ w : Nat, decode (BitVec.ofNat 32 w) = .ok i →
      step (s.withFetchWord 32 w) = exec i (s.accept (BitVec.ofNat 32 w)))

/-- A step serves the port in order: the first turn of the agenda is taken whole, and an idle machine
stays as it is; with an empty agenda and nothing pending a runnable host program executes its next line. That
turns come from an agenda is the model's choice (assumption log entry 3). -/
def Obligations.StepServesThePortInOrder : Prop :=
  ∀ s : State,
    (∀ a ts, s.agenda = .access a :: ts → step s = .next (hostAccess a { s with agenda := ts })) ∧
    (∀ ts, s.agenda = .reset :: ts → step s = .next { s with agenda := ts }.hardReset) ∧
    (∀ ts, s.agenda = .line :: ts → step s = .next (lineTurn { s with agenda := ts })) ∧
    (∀ ts, s.agenda = .engine :: ts → s.busy = false → step s = .next { s with agenda := ts }) ∧
    (s.agenda = [] → s.busy = false → s.host.runnable = true → step s = .next (lineTurn s)) ∧
    (s.agenda = [] → s.busy = false → s.host.runnable = false → step s = .next s)

/-- R27: a CMD write while idle accepts the word; while busy it is dropped and OVR becomes 1; a read
returns the last accepted word, 0 after reset, and changes nothing; an illegal word is accepted like any
other and completes with ILLEGAL_CMD. -/
def Obligations.CommandWriteAcceptsOrDrops : Prop :=
  (∀ p, (State.resetWith p).cmd = 0) ∧ (∀ s : State, s.hardReset.cmd = 0) ∧
  ∀ (s : State) (w : Word),
    (s.busy = false → applyAccess (.write .w32 0x008 w) s =
      { s with cmd := w, done := false, err := false, errCode := .none, errOp := 0, busy := true }) ∧
    (s.busy = true → applyAccess (.write .w32 0x008 w) s = { s with ovr := true }) ∧
    answerOf (.read .w32 0x008) s = .data s.cmd ∧ applyAccess (.read .w32 0x008) s = s ∧
    (s.busy = false → commandWordWf w = false →
      engineTurn (applyAccess (.write .w32 0x008 w) s) =
        .next ((s.accept w).failed .illegalCmd (w.extractLsb' 0 8)))

/-- R41, the part about completion: exactly one of DONE and ERR is set by it, BUSY is cleared, KEYV is
written by DERIVE alone, and OVR, IE and CMD are written by no command. -/
def Obligations.CompletionSetsDoneOrErr : Prop :=
  ∀ (i : Instr) (s t : State), exec i s = .next t →
    t.busy = false ∧
    ((t.done = true ∧ t.err = s.err) ∨ (t.done = s.done ∧ t.err = true)) ∧
    t.keyv = (s.keyv || decide (i = .derive)) ∧ t.ovr = s.ovr ∧ t.ie = s.ie ∧ t.cmd = s.cmd

/-- R256: a primitive that ends in an error leaves everything but STATUS and ERRINFO as it was. -/
def Obligations.FailedPrimitiveWritesNothing : Prop :=
  ∀ (i : Instr) (s t : State), i ≠ .sealFrame → i ≠ .openFrame → s.err = false →
    exec i s = .next t → t.err = true → ∃ c op, c ≠ .none ∧ t = s.failed c op

/-- R93, the write column: which register each command may write, from any state, success or error. -/
def Obligations.CommandsWriteTheirRegistersOnly : Prop :=
  ∀ (i : Instr) (s t : State), exec i s = .next t →
    t.token = s.token ∧ t.hoff = s.hoff ∧ t.hlen = s.hlen ∧ t.devid = s.devid ∧ t.stamp = s.stamp ∧
    (i ≠ .derive → t.key = s.key ∧ t.iv = s.iv) ∧
    (i ∉ [Instr.md5, .fenc, .fdec, .sealFrame, .openFrame] → t.digest = s.digest) ∧
    (i ∉ [Instr.pad, .unpad, .fdec, .sent, .strip, .sealFrame, .openFrame] → t.blen = s.blen) ∧
    (i ∉ [Instr.fenc, .sealFrame] → t.flen = s.flen) ∧
    t.params = s.params ∧ t.resets = s.resets ∧ t.agenda = s.agenda ∧ t.answers = s.answers ∧
    t.host = s.host

/-- R77: what each command leaves of DBUF, from any state, success or error. -/
def Obligations.CommandsWriteTheirBytesOnly : Prop :=
  ∀ (i : Instr) (s t : State), exec i s = .next t →
    (i ∈ [Instr.nop, .md5, .derive, .unpad, .fdec, .strip] → s.SameDbuf t) ∧
    (i = .pad ∨ i = .sent → ∀ a, a < 32 + s.blen.toNat ∨ 32 + t.blen.toNat ≤ a → t.byte a = s.byte a) ∧
    (i = .enc ∨ i = .dec → ∀ a, a < 32 ∨ 32 + s.blen.toNat ≤ a → t.byte a = s.byte a) ∧
    (i = .fenc → ∀ a, 32 ≤ a → t.byte a = s.byte a) ∧
    (i = .sealFrame → ∀ a, 32 + t.blen.toNat ≤ a → t.byte a = s.byte a) ∧
    (i = .openFrame → ∀ a, a < 32 ∨ s.flen.toNat ≤ a → t.byte a = s.byte a)

end Lifecycle

section Hash

/-- R110, the padding: the message, 0x80, the least number of zero bytes that reaches 56 modulo 64, the
bit length in 8 bytes; a whole number of 64-byte blocks, at least one. -/
def Obligations.Md5PaddingIsWholeBlocks : Prop :=
  ∀ m : List Byte, ∃ z, (m.length + 1 + z) % 64 = 56 ∧ (∀ y, (m.length + 1 + y) % 64 = 56 → z ≤ y) ∧
    md5Pad m = m ++ [0x80] ++ List.replicate z 0x00 ++ le64 (8 * m.length % 2 ^ 64) ∧
    (md5Pad m).length % 64 = 0 ∧ 64 ≤ (md5Pad m).length

/-- MD5 inside the buffer writes the digest of `DBUF[HOFF .. HOFF+HLEN-1]` into DIGEST and nothing else;
past the buffer, by a sum that does not wrap, it raises RANGE. -/
def Obligations.Md5HashesTheRegion : Prop :=
  ∀ s : State,
    (s.hoff.toNat + s.hlen.toNat ≤ s.dbufBytes → exec .md5 s =
      .next { s with digest := md5 (s.peek s.hoff.toNat s.hlen.toNat), busy := false, done := true }) ∧
    (s.dbufBytes < s.hoff.toNat + s.hlen.toNat → exec .md5 s = .next (s.failed .range 0x01))

end Hash

section Cipher

/-- R144: the two substitution tables are inverse permutations; R145: the products the cipher uses are the
stated sums of `xtime`. -/
def Obligations.CipherTablesAndProducts : Prop :=
  ∀ a : Byte, invSbox (sbox a) = a ∧ sbox (invSbox a) = a ∧
    gmul 0x02 a = xtime a ∧ gmul 0x03 a = xtime a ^^^ a ∧
    gmul 0x09 a = xtime (xtime (xtime a)) ^^^ a ∧
    gmul 0x0b a = xtime (xtime (xtime a)) ^^^ xtime a ^^^ a ∧
    gmul 0x0d a = xtime (xtime (xtime a)) ^^^ xtime (xtime a) ^^^ a ∧
    gmul 0x0e a = xtime (xtime (xtime a)) ^^^ xtime (xtime a) ^^^ xtime a

/-- R143, its law: `aes_dec(k, ·)` and `aes_enc(k, ·)` are inverse to each other, for every key. -/
def Obligations.AesDecInvertsAesEnc : Prop :=
  ∀ k b : Block, aesDec k (aesEnc k b) = b ∧ aesEnc k (aesDec k b) = b

/-- R147, its law: `cbc_dec(k, iv, cbc_enc(k, iv, P)) = P` for every aligned `P`; both keep the length. -/
def Obligations.CbcDecInvertsCbcEnc : Prop :=
  ∀ (k iv : Block) (p : List Byte), p.length % 16 = 0 →
    cbcDec k iv (cbcEnc k iv p) = p ∧ cbcEnc k iv (cbcDec k iv p) = p ∧
      (cbcEnc k iv p).length = p.length ∧ (cbcDec k iv p).length = p.length

/-- DERIVE always completes: `KEY = md5(TOKEN)`, `IV = md5(KEY ‖ TOKEN)`, `KEYV = 1`, nothing else. -/
def Obligations.DeriveSetsTheKeys : Prop :=
  ∀ s : State, exec .derive s = .next { s with
    key := md5 s.token.toList
    iv := md5 ((md5 s.token.toList).toList ++ s.token.toList)
    keyv := true, busy := false, done := true }

/-- PAD of a non-empty body with room for the padding: `n` bytes of value `n` after it, BLEN increased by
`n`, where `n = 16 - (L mod 16)`. -/
def Obligations.PadAppendsThePadding : Prop :=
  ∀ s : State, s.blen.toNat ≠ 0 →
    32 + s.blen.toNat + (16 - s.blen.toNat % 16) ≤ s.dbufBytes →
    ∃ t, exec .pad s = .next t ∧
      s.Stores t (32 + s.blen.toNat)
        (List.replicate (16 - s.blen.toNat % 16) (BitVec.ofNat 8 (16 - s.blen.toNat % 16))) ∧
      { t with dbuf := s.dbuf } = { s with
        blen := BitVec.ofNat 32 (s.blen.toNat + (16 - s.blen.toNat % 16)), busy := false, done := true }

/-- PAD's errors, in order: RANGE, EMPTY_INPUT, BUF_OVF. -/
def Obligations.PadErrors : Prop :=
  ∀ s : State,
    if s.dbufBytes - 32 < s.blen.toNat then exec .pad s = .next (s.failed .range 0x11)
    else if s.blen.toNat = 0 then exec .pad s = .next (s.failed .emptyInput 0x11)
    else if s.dbufBytes < 32 + s.blen.toNat + (16 - s.blen.toNat % 16) then
      exec .pad s = .next (s.failed .bufOvf 0x11)
    else True

/-- UNPAD of a body inside the buffer with good padding: BLEN decreases by the claimed pad length (also
one above 16, U3); no DBUF byte and no other register changes. -/
def Obligations.UnpadRemovesThePadding : Prop :=
  ∀ s : State, s.blen.toNat ≤ s.dbufBytes - 32 → GoodPadding s.body →
    exec .unpad s = .next { s with
      blen := BitVec.ofNat 32 (s.blen.toNat - claimedPad s.body), busy := false, done := true }

/-- UNPAD's errors, in order: RANGE, BAD_PAD (an empty body among them). -/
def Obligations.UnpadErrors : Prop :=
  ∀ s : State,
    if s.dbufBytes - 32 < s.blen.toNat then exec .unpad s = .next (s.failed .range 0x12)
    else if s.blen.toNat = 0 ∨ ¬ GoodPadding s.body then exec .unpad s = .next (s.failed .badPad 0x12)
    else True

/-- ENC of a whole number of blocks (none among them) with KEYV = 1: the body becomes `cbc_enc(KEY, IV,
body)` in place, the chain starting at IV; no register but STATUS changes. -/
def Obligations.EncEncryptsInPlace : Prop :=
  ∀ s : State, s.keyv = true → s.blen.toNat ≤ s.dbufBytes - 32 → s.blen.toNat % 16 = 0 →
    ∃ t, exec .enc s = .next t ∧ s.Stores t 32 (cbcEnc s.key s.iv s.body) ∧
      { t with dbuf := s.dbuf } = { s with busy := false, done := true }

/-- DEC of a whole number of blocks with KEYV = 1: the body becomes `cbc_dec(KEY, IV, body)` in place. -/
def Obligations.DecDecryptsInPlace : Prop :=
  ∀ s : State, s.keyv = true → s.blen.toNat ≤ s.dbufBytes - 32 → s.blen.toNat % 16 = 0 →
    ∃ t, exec .dec s = .next t ∧ s.Stores t 32 (cbcDec s.key s.iv s.body) ∧
      { t with dbuf := s.dbuf } = { s with busy := false, done := true }

/-- The errors of ENC and DEC, in order: NO_KEY, RANGE, ALIGN. -/
def Obligations.EncDecErrors : Prop :=
  ∀ (s : State) (i : Instr) (op : Byte), (i, op) ∈ [(Instr.enc, 0x13), (.dec, 0x14)] →
    if s.keyv = false then exec i s = .next (s.failed .noKey op)
    else if s.dbufBytes - 32 < s.blen.toNat then exec i s = .next (s.failed .range op)
    else if s.blen.toNat % 16 ≠ 0 then exec i s = .next (s.failed .align op)
    else True

/-- R153: PAD, ENC, DEC, UNPAD in turn give back every non-empty body that fits. -/
def Obligations.PadEncDecUnpadRoundTrip : Prop :=
  ∀ s : State, s.keyv = true → s.blen.toNat ≠ 0 →
    32 + s.blen.toNat + 16 - s.blen.toNat % 16 ≤ s.dbufBytes →
    ∃ s1 s2 s3 s4, Completes .pad s s1 ∧ Completes .enc s1 s2 ∧ Completes .dec s2 s3 ∧
      Completes .unpad s3 s4 ∧ s4.blen = s.blen ∧ s4.body = s.body

end Cipher

section Frame

/-- FENC of a body inside the buffer whose frame length fits 16 bits, with KEYV = 1: the 32 header bytes
are written, DIGEST and FLEN set, nothing else; the frame is then well-formed for TOKEN. -/
def Obligations.FencBuildsTheFrame : Prop :=
  ∀ s : State, s.keyv = true → s.blen.toNat ≤ s.dbufBytes - 32 → 32 + s.blen.toNat ≤ 65535 →
    ∃ t, exec .fenc s = .next t ∧
      s.Stores t 0 (frameHeader s.devid s.stamp s.token s.body) ∧
      { t with dbuf := s.dbuf } = { s with
        flen := BitVec.ofNat 32 (32 + s.blen.toNat)
        digest := frameDigest s.devid s.stamp s.token s.body, busy := false, done := true } ∧
      WellFormedFrame t.frame t.token

/-- FENC's errors, in order: NO_KEY, RANGE, LEN_OVF. -/
def Obligations.FencErrors : Prop :=
  ∀ s : State,
    if s.keyv = false then exec .fenc s = .next (s.failed .noKey 0x20)
    else if s.dbufBytes - 32 < s.blen.toNat then exec .fenc s = .next (s.failed .range 0x20)
    else if 65535 < 32 + s.blen.toNat then exec .fenc s = .next (s.failed .lenOvf 0x20)
    else True

/-- FDEC of a well-formed frame of at least 33 bytes inside the buffer, with KEYV = 1: BLEN and DIGEST are
set; no DBUF byte and no other register changes. -/
def Obligations.FdecExposesTheBody : Prop :=
  ∀ s : State, s.keyv = true → 33 ≤ s.flen.toNat → s.flen.toNat ≤ s.dbufBytes →
    WellFormedFrame s.frame s.token →
    exec .fdec s = .next { s with
      blen := BitVec.ofNat 32 (s.flen.toNat - 32), digest := s.imageDigest, busy := false, done := true }

/-- FDEC's errors, in order: NO_KEY, RANGE, SHORT_FRAME, CHECKSUM. EMPTY_BODY is unreachable. -/
def Obligations.FdecErrors : Prop :=
  ∀ s : State,
    if s.keyv = false then exec .fdec s = .next (s.failed .noKey 0x21)
    else if s.dbufBytes < s.flen.toNat then exec .fdec s = .next (s.failed .range 0x21)
    else if s.flen.toNat < 33 then exec .fdec s = .next (s.failed .shortFrame 0x21)
    else if ¬ WellFormedFrame s.frame s.token then exec .fdec s = .next (s.failed .checksum 0x21)
    else True

/-- R194: FDEC issued after a successful FENC of a non-empty body gives the body back, DIGEST equal to the
slot; and for every non-empty body that fits, the six primitives in turn give back exactly that body. -/
def Obligations.FrameRoundTrip : Prop :=
  (∀ s t : State, Completes .fenc s t → 1 ≤ s.blen.toNat →
    ∃ u, Completes .fdec t u ∧ u.blen = s.blen ∧ u.body = s.body ∧ u.digest.toList = u.peek 16 16) ∧
  ∀ s : State, s.keyv = true → s.blen.toNat ≠ 0 →
    32 + s.blen.toNat + (16 - s.blen.toNat % 16) ≤ s.dbufBytes →
    32 + s.blen.toNat + (16 - s.blen.toNat % 16) ≤ 65535 →
    ∃ s1 s2 s3 s4 s5 s6, Completes .pad s s1 ∧ Completes .enc s1 s2 ∧ Completes .fenc s2 s3 ∧
      Completes .fdec s3 s4 ∧ Completes .dec s4 s5 ∧ Completes .unpad s5 s6 ∧
      s6.blen = s.blen ∧ s6.body = s.body

/-- R195: one byte of a well-formed frame changed. In the slot, FDEC raises CHECKSUM; elsewhere it does so
exactly when `md5` of the changed image differs from the slot. -/
def Obligations.TamperedFrameDetection : Prop :=
  ∀ (s : State) (i : Nat) (b : Byte), s.keyv = true → s.err = false → 33 ≤ s.flen.toNat →
    s.flen.toNat ≤ s.dbufBytes → WellFormedFrame s.frame s.token → i < s.flen.toNat → b ≠ s.byte i →
    (16 ≤ i ∧ i < 32 → exec .fdec (s.poke i [b]) = .next ((s.poke i [b]).failed .checksum 0x21)) ∧
    (i < 16 ∨ 32 ≤ i →
      (exec .fdec (s.poke i [b]) = .next ((s.poke i [b]).failed .checksum 0x21) ↔
        (s.poke i [b]).imageDigest.toList ≠ s.peek 16 16))

end Frame

section Sequence

/-- NOP always completes and changes nothing but BUSY and DONE. -/
def Obligations.NopCompletes : Prop :=
  ∀ s : State, exec .nop s = .next { s with busy := false, done := true }

/-- SENT with room for the sentinel, or with the sentinel present: one 0x00 is appended if absent, else
nothing is written. -/
def Obligations.SentAppendsTheSentinel : Prop :=
  ∀ s : State, s.blen.toNat ≤ s.dbufBytes - 32 →
    if s.blen.toNat = 0 ∨ s.byte (32 + s.blen.toNat - 1) ≠ 0x00 then
      32 + s.blen.toNat + 1 ≤ s.dbufBytes →
      ∃ t, exec .sent s = .next t ∧ s.Stores t (32 + s.blen.toNat) [0x00] ∧
        { t with dbuf := s.dbuf } = { s with
          blen := BitVec.ofNat 32 (s.blen.toNat + 1), busy := false, done := true }
    else exec .sent s = .next { s with busy := false, done := true }

/-- STRIP of a body inside the buffer: BLEN decreases by one if the body ends in 0x00; no DBUF byte
changes. -/
def Obligations.StripRemovesTheSentinel : Prop :=
  ∀ s : State, s.blen.toNat ≤ s.dbufBytes - 32 →
    exec .strip s = .next { s with
      blen := (if s.blen.toNat ≠ 0 ∧ s.byte (32 + s.blen.toNat - 1) = 0x00
        then BitVec.ofNat 32 (s.blen.toNat - 1) else s.blen)
      busy := false, done := true }

/-- The errors of SENT, in order: RANGE, BUF_OVF; and STRIP's RANGE. -/
def Obligations.SentStripErrors : Prop :=
  ∀ s : State,
    (if s.dbufBytes - 32 < s.blen.toNat then exec .sent s = .next (s.failed .range 0x30)
     else if (s.blen.toNat = 0 ∨ s.byte (32 + s.blen.toNat - 1) ≠ 0x00) ∧
       s.dbufBytes < 32 + s.blen.toNat + 1 then exec .sent s = .next (s.failed .bufOvf 0x30)
     else True) ∧
    (s.dbufBytes - 32 < s.blen.toNat → exec .strip s = .next (s.failed .range 0x31))

/-- SEAL with KEYV = 1 of a payload that fits: the whole frame, header, digest and ciphertext of the padded
payload with its sentinel, stands at the start of DBUF; BLEN, FLEN and DIGEST are set. -/
def Obligations.SealBuildsTheFrame : Prop :=
  ∀ s : State, s.keyv = true →
    32 + (withPadding (withSentinel s.body)).length ≤ s.dbufBytes →
    32 + (withPadding (withSentinel s.body)).length ≤ 65535 →
    ∃ t, exec .sealFrame s = .next t ∧
      s.Stores t 0
        (frameHeader s.devid s.stamp s.token (cbcEnc s.key s.iv (withPadding (withSentinel s.body))) ++
          cbcEnc s.key s.iv (withPadding (withSentinel s.body))) ∧
      { t with dbuf := s.dbuf } = { s with
        blen := BitVec.ofNat 32 (withPadding (withSentinel s.body)).length
        flen := BitVec.ofNat 32 (32 + (withPadding (withSentinel s.body)).length)
        digest := frameDigest s.devid s.stamp s.token
          (cbcEnc s.key s.iv (withPadding (withSentinel s.body)))
        busy := false, done := true }

/-- SEAL's errors, in order, each with what the parts before it left: NO_KEY; SENT's RANGE and BUF_OVF;
PAD's BUF_OVF (the sentinel stays); FENC's LEN_OVF (the ciphertext stays). -/
def Obligations.SealErrors : Prop :=
  ∀ s : State,
    if s.keyv = false then exec .sealFrame s = .next (s.failed .noKey 0x40)
    else if s.dbufBytes - 32 < s.blen.toNat then exec .sealFrame s = .next (s.failed .range 0x30)
    else if s.dbufBytes < 32 + (withSentinel s.body).length then
      exec .sealFrame s = .next (s.failed .bufOvf 0x30)
    else if s.dbufBytes < 32 + (withPadding (withSentinel s.body)).length then
      ∃ t, exec .sealFrame s = .next t ∧ s.Stores t 32 (withSentinel s.body) ∧
        { t with dbuf := s.dbuf } =
          { s with blen := BitVec.ofNat 32 (withSentinel s.body).length }.failed .bufOvf 0x11
    else if 65535 < 32 + (withPadding (withSentinel s.body)).length then
      ∃ t, exec .sealFrame s = .next t ∧
        s.Stores t 32 (cbcEnc s.key s.iv (withPadding (withSentinel s.body))) ∧
        { t with dbuf := s.dbuf } =
          { s with blen := BitVec.ofNat 32 (withPadding (withSentinel s.body)).length }.failed .lenOvf 0x20
    else True

/-- OPEN with KEYV = 1 of a well-formed frame whose body is whole blocks and decrypts to good padding: the
body is decrypted in place, BLEN is the payload's length without padding and sentinel, DIGEST is the
frame's; FLEN and every other byte stay. -/
def Obligations.OpenYieldsThePayload : Prop :=
  ∀ (s : State) (p : List Byte), s.keyv = true → 33 ≤ s.flen.toNat → s.flen.toNat ≤ s.dbufBytes →
    WellFormedFrame s.frame s.token → (s.flen.toNat - 32) % 16 = 0 →
    p = cbcDec s.key s.iv (s.peek 32 (s.flen.toNat - 32)) → GoodPadding p →
    ∃ t, exec .openFrame s = .next t ∧ s.Stores t 32 p ∧
      { t with dbuf := s.dbuf } = { s with
        blen := BitVec.ofNat 32 (withoutSentinel (p.take (p.length - claimedPad p))).length
        digest := s.imageDigest, busy := false, done := true }

/-- OPEN's errors, in order, each with what the parts before it left: NO_KEY; FDEC's RANGE, SHORT_FRAME,
CHECKSUM; DEC's ALIGN (BLEN and DIGEST stay written); UNPAD's BAD_PAD (the decrypted body stays). That
DIGEST stays written is the model's reading of two rules that differ (assumption log entry 6). -/
def Obligations.OpenErrors : Prop :=
  ∀ s : State,
    if s.keyv = false then exec .openFrame s = .next (s.failed .noKey 0x41)
    else if s.dbufBytes < s.flen.toNat then exec .openFrame s = .next (s.failed .range 0x21)
    else if s.flen.toNat < 33 then exec .openFrame s = .next (s.failed .shortFrame 0x21)
    else if ¬ WellFormedFrame s.frame s.token then exec .openFrame s = .next (s.failed .checksum 0x21)
    else if (s.flen.toNat - 32) % 16 ≠ 0 then
      exec .openFrame s = .next ({ s with
        blen := BitVec.ofNat 32 (s.flen.toNat - 32), digest := s.imageDigest }.failed .align 0x14)
    else if ¬ GoodPadding (cbcDec s.key s.iv (s.peek 32 (s.flen.toNat - 32))) then
      ∃ t, exec .openFrame s = .next t ∧
        s.Stores t 32 (cbcDec s.key s.iv (s.peek 32 (s.flen.toNat - 32))) ∧
        { t with dbuf := s.dbuf } = { s with
          blen := BitVec.ofNat 32 (s.flen.toNat - 32), digest := s.imageDigest }.failed .badPad 0x12
    else True

/-- R257: a composite runs its parts in order; a failing part ends it with the part's code and opcode and
writes nothing, and the parts before it keep their effects. -/
def Obligations.CompositesStopAtTheFailingPart : Prop :=
  ∀ s : State,
    (s.keyv = false → exec .sealFrame s = .next (s.failed .noKey 0x40) ∧
      exec .openFrame s = .next (s.failed .noKey 0x41)) ∧
    (s.keyv = true →
      (∃ c, runSent s = .raised c 0x30 s ∧ exec .sealFrame s = .next (s.failed c 0x30)) ∨
      ∃ s1, runSent s = .complete s1 ∧
        ((∃ c, runPad s1 = .raised c 0x11 s1 ∧ exec .sealFrame s = .next (s1.failed c 0x11)) ∨
        ∃ s2, runPad s1 = .complete s2 ∧
          ((∃ c, runEnc s2 = .raised c 0x13 s2 ∧ exec .sealFrame s = .next (s2.failed c 0x13)) ∨
          ∃ s3, runEnc s2 = .complete s3 ∧
            ((∃ c, runFenc s3 = .raised c 0x20 s3 ∧ exec .sealFrame s = .next (s3.failed c 0x20)) ∨
            ∃ s4, runFenc s3 = .complete s4 ∧
              exec .sealFrame s = .next { s4 with busy := false, done := true })))) ∧
    (s.keyv = true →
      (∃ c, runFdec s = .raised c 0x21 s ∧ exec .openFrame s = .next (s.failed c 0x21)) ∨
      ∃ s1, runFdec s = .complete s1 ∧
        ((∃ c, runDec s1 = .raised c 0x14 s1 ∧ exec .openFrame s = .next (s1.failed c 0x14)) ∨
        ∃ s2, runDec s1 = .complete s2 ∧
          ((∃ c, runUnpad s2 = .raised c 0x12 s2 ∧ exec .openFrame s = .next (s2.failed c 0x12)) ∨
          ∃ s3, runUnpad s2 = .complete s3 ∧
            ((∃ c, runStrip s3 = .raised c 0x31 s3 ∧ exec .openFrame s = .next (s3.failed c 0x31)) ∨
            ∃ s4, runStrip s3 = .complete s4 ∧
              exec .openFrame s = .next { s4 with busy := false, done := true }))))

/-- R225: SEAL followed by OPEN gives back every payload that fits and is empty or does not end in 0x00;
of a payload that ends in 0x00 it gives all but the last byte. -/
def Obligations.SealOpenRoundTrip : Prop :=
  ∀ s : State, s.keyv = true →
    32 + (withPadding (withSentinel s.body)).length ≤ s.dbufBytes →
    32 + (withPadding (withSentinel s.body)).length ≤ 65535 →
    ∃ t u, Completes .sealFrame s t ∧ Completes .openFrame t u ∧
      (s.blen.toNat = 0 ∨ s.body.getLastD 0x00 ≠ 0x00 → u.blen = s.blen ∧ u.body = s.body) ∧
      (s.blen.toNat ≠ 0 ∧ s.body.getLastD 0x00 = 0x00 →
        u.blen.toNat = s.blen.toNat - 1 ∧ u.body = s.body.dropLast)

end Sequence

section HostPort

/-- R63 and R65, with R294's refusal while busy: the port refuses exactly the stated accesses; a refused
access is answered with a bus error and changes nothing. -/
def Obligations.RefusedAccessHasNoEffect : Prop :=
  ∀ (s : State) (w : Width) (off : Nat) (a : Access),
    (a = .read w off ∨ ∃ v, a = .write w off v) →
    (answerOf a s = .busError ↔ RefusedAccess s w off) ∧
    (RefusedAccess s w off → applyAccess a s = s ∧ hostAccess a s =
      { s with answers := .busError :: s.answers })

/-- R294: while a command is pending, every access to data state is refused and no access changes it (a
reset by CTRL discards the command); every other offset behaves as in the idle engine: it is refused when it
would be, reads the same but for STATUS.BUSY, answers a write the same, and is written the same but for CMD,
where the word is dropped (R295). -/
def Obligations.BusyProtectsDataState : Prop :=
  ∀ s : State, s.busy = true →
    (∀ w off, DataOffset off → answerOf (.read w off) s = .busError ∧
      ∀ v, answerOf (.write w off v) s = .busError) ∧
    (∀ w off, ¬ DataOffset off → (RefusedAccess s w off ↔ RefusedAccess { s with busy := false } w off)) ∧
    (∀ w off, ¬ DataOffset off → off ≠ 0x00C →
      answerOf (.read w off) s = answerOf (.read w off) { s with busy := false }) ∧
    (∀ w off v, ¬ DataOffset off →
      answerOf (.write w off v) s = answerOf (.write w off v) { s with busy := false }) ∧
    answerOf (.read .w32 0x00C) s = .data ({ s with busy := false }.statusWord ||| 1) ∧
    (∀ w off v, ¬ DataOffset off → off ≠ 0x008 → ¬(off = 0x004 ∧ w = .w32 ∧ v.getLsbD 1 = true) →
      applyAccess (.write w off v) s =
        { applyAccess (.write w off v) { s with busy := false } with busy := true }) ∧
    (∀ v : Word, applyAccess (.write .w32 0x008 v) s = { s with ovr := true }) ∧
    (∀ v : Word, v.getLsbD 1 = true → applyAccess (.write .w32 0x004 v) s = s.hardReset) ∧
    (∀ a, (applyAccess a s).busy = true →
      (applyAccess a s).cmd = s.cmd ∧
      { applyAccess a s with done := s.done, err := s.err, ovr := s.ovr, ie := s.ie } = s)

/-- What a read of each register gives: ID, CTRL, CMD and ERRINFO always; when idle the operand registers,
and at each width KEY, IV and DIGEST on little-endian lanes and TOKEN as 0. No read changes anything. -/
def Obligations.WindowReads : Prop :=
  ∀ s : State,
    (∀ w off, applyAccess (.read w off) s = s) ∧
    answerOf (.read .w32 0x000) s = .data 0x4D49494F ∧
    answerOf (.read .w32 0x004) s = .data (if s.ie then 1 else 0) ∧
    answerOf (.read .w32 0x008) s = .data s.cmd ∧
    answerOf (.read .w32 0x010) s = .data ((0 : BitVec 16) ++ s.errOp ++ errNumber s.errCode) ∧
    (s.busy = false →
      answerOf (.read .w32 0x014) s = .data s.blen ∧ answerOf (.read .w32 0x018) s = .data s.flen ∧
      answerOf (.read .w32 0x01C) s = .data s.hoff ∧ answerOf (.read .w32 0x020) s = .data s.hlen ∧
      answerOf (.read .w32 0x024) s = .data s.devid ∧ answerOf (.read .w32 0x028) s = .data s.stamp ∧
      (∀ w i, i < 16 → i % widthBytes w = 0 → answerOf (.read w (0x040 + i)) s = .data 0) ∧
      s.ReadsBytes 0x050 s.key ∧ s.ReadsBytes 0x060 s.iv ∧ s.ReadsBytes 0x070 s.digest)

/-- R28 and R26: the bits of STATUS as it reads, what a STATUS write clears, and what a CTRL write without
SRST sets, busy or not. -/
def Obligations.StatusReadsAndClears : Prop :=
  ∀ s : State,
    (∃ x : Word, answerOf (.read .w32 0x00C) s = .data x ∧ x.getLsbD 0 = s.busy ∧ x.getLsbD 1 = s.done ∧
      x.getLsbD 2 = s.err ∧ x.getLsbD 3 = s.keyv ∧ x.getLsbD 4 = s.ovr ∧ x.getLsbD 5 = s.irq ∧
      ∀ n, 6 ≤ n → x.getLsbD n = false) ∧
    (∀ v : Word, applyAccess (.write .w32 0x00C v) s = { s with
      done := s.done && !v.getLsbD 1, err := s.err && !v.getLsbD 2, ovr := s.ovr && !v.getLsbD 4 }) ∧
    ∀ v : Word, v.getLsbD 1 = false → applyAccess (.write .w32 0x004 v) s = { s with ie := v.getLsbD 0 }

/-- R43: the interrupt output is `IE & (DONE | ERR)`, reads as STATUS bit 5, and is deasserted by clearing
DONE and ERR, by clearing IE, by acceptance, and by reset. -/
def Obligations.InterruptOutput : Prop :=
  ∀ s : State,
    (s.irq = true ↔ s.ie = true ∧ (s.done = true ∨ s.err = true)) ∧ s.statusWord.getLsbD 5 = s.irq ∧
    (∀ v : Word, v.getLsbD 1 = true → v.getLsbD 2 = true →
      (applyAccess (.write .w32 0x00C v) s).irq = false) ∧
    (∀ v : Word, v.getLsbD 0 = false → (applyAccess (.write .w32 0x004 v) s).irq = false) ∧
    (s.busy = false → ∀ w, (applyAccess (.write .w32 0x008 w) s).irq = false) ∧ s.hardReset.irq = false

/-- R32, R34, R35 (with BLEN, FLEN and HLEN beside them): the operand registers reset to 0, are written and
read back whole when idle, and no command writes HOFF, HLEN, DEVID or STAMP. -/
def Obligations.OperandRegistersReadBack : Prop :=
  (∀ (p : Params) (r : OpReg), (State.resetWith p).opReg r = 0) ∧
  (∀ (s : State) (v : Word), s.busy = false →
    applyAccess (.write .w32 0x014 v) s = { s with blen := v } ∧
    applyAccess (.write .w32 0x018 v) s = { s with flen := v } ∧
    applyAccess (.write .w32 0x01C v) s = { s with hoff := v } ∧
    applyAccess (.write .w32 0x020 v) s = { s with hlen := v } ∧
    applyAccess (.write .w32 0x024 v) s = { s with devid := v } ∧
    applyAccess (.write .w32 0x028 v) s = { s with stamp := v } ∧
    answerOf (.read .w32 0x014) { s with blen := v } = .data v ∧
    answerOf (.read .w32 0x018) { s with flen := v } = .data v ∧
    answerOf (.read .w32 0x01C) { s with hoff := v } = .data v ∧
    answerOf (.read .w32 0x020) { s with hlen := v } = .data v ∧
    answerOf (.read .w32 0x024) { s with devid := v } = .data v ∧
    answerOf (.read .w32 0x028) { s with stamp := v } = .data v) ∧
  ∀ (i : Instr) (s t : State), exec i s = .next t →
    t.hoff = s.hoff ∧ t.hlen = s.hlen ∧ t.devid = s.devid ∧ t.stamp = s.stamp

/-- R61 on the DBUF window, idle: the byte at offset `A + j` travels on data bits `8j+7 .. 8j`, in reads
and in writes of each width; a write changes those bytes alone. -/
def Obligations.DbufByteLanes : Prop :=
  ∀ (s : State) (i : Nat), s.busy = false →
    (i + 1 ≤ s.dbufBytes →
      answerOf (.read .w8 (0x10000 + i)) s = .data ((s.byte i).setWidth 32) ∧
      ∀ v : Word, ∃ t, applyAccess (.write .w8 (0x10000 + i) v) s = t ∧
        s.Stores t i [v.extractLsb' 0 8] ∧ { t with dbuf := s.dbuf } = s) ∧
    (i % 2 = 0 → i + 2 ≤ s.dbufBytes →
      answerOf (.read .w16 (0x10000 + i)) s =
        .data ((s.byte i).setWidth 32 ||| (s.byte (i + 1)).setWidth 32 <<< 8) ∧
      ∀ v : Word, ∃ t, applyAccess (.write .w16 (0x10000 + i) v) s = t ∧
        s.Stores t i [v.extractLsb' 0 8, v.extractLsb' 8 8] ∧ { t with dbuf := s.dbuf } = s) ∧
    (i % 4 = 0 → i + 4 ≤ s.dbufBytes →
      answerOf (.read .w32 (0x10000 + i)) s =
        .data ((s.byte i).setWidth 32 ||| (s.byte (i + 1)).setWidth 32 <<< 8 |||
          (s.byte (i + 2)).setWidth 32 <<< 16 ||| (s.byte (i + 3)).setWidth 32 <<< 24) ∧
      ∀ v : Word, ∃ t, applyAccess (.write .w32 (0x10000 + i) v) s = t ∧
        s.Stores t i [v.extractLsb' 0 8, v.extractLsb' 8 8, v.extractLsb' 16 8, v.extractLsb' 24 8] ∧
        { t with dbuf := s.dbuf } = s)

/-- R40: reserved offsets read as zero and ignore writes at every permitted width, busy or not; offsets
0x10000 and up are the DBUF window. -/
def Obligations.ReservedOffsetsAreRazWi : Prop :=
  (∀ off : Nat, 0x10000 ≤ off → regionOf off = .dbuf (off - 0x10000)) ∧
  ∀ (s : State) (w : Width) (off : Nat),
    (0x02C ≤ off ∧ off < 0x040) ∨ (0x080 ≤ off ∧ off < 0x10000) →
    (¬ RefusedAccess s w off → answerOf (.read w off) s = .data 0 ∧
      ∀ v, answerOf (.write w off v) s = .written) ∧
    ∀ v, applyAccess (.write w off v) s = s

/-- Host writes to ID, ERRINFO, KEY, IV and DIGEST change nothing. -/
def Obligations.ReadOnlyRegistersIgnoreWrites : Prop :=
  ∀ (s : State) (w : Width) (off : Nat) (v : Word),
    off < 0x004 ∨ (0x010 ≤ off ∧ off < 0x014) ∨
      (0x050 ≤ off ∧ off < 0x080) →
    applyAccess (.write w off v) s = s

/-- R36, its write: the addressed bytes of TOKEN are written from the low lanes, KEYV is cleared, nothing
else changes. -/
def Obligations.TokenWrite : Prop :=
  ∀ (s : State) (w : Width) (i : Nat) (v : Word), s.busy = false → i < 16 → i % widthBytes w = 0 →
    ∃ t, applyAccess (.write w (0x040 + i) v) s = t ∧ t.keyv = false ∧
      (∀ j : Fin 16, t.token[j] =
        if i ≤ j.val ∧ j.val < i + widthBytes w then v.extractLsb' (8 * (j.val - i)) 8
        else s.token[j]) ∧
      { t with token := s.token, keyv := s.keyv } = s

/-- R296: a permitted write to the TOKEN region leaves KEYV = 0; while KEYV = 0 each keyed command ends in
NO_KEY with its own opcode and nothing else changes; no host access and no command but DERIVE sets KEYV. -/
def Obligations.TokenChangeNeedsDerive : Prop :=
  (∀ (s : State) (w : Width) (off : Nat) (v : Word), 0x040 ≤ off → off < 0x050 →
    answerOf (.write w off v) s = .written → (applyAccess (.write w off v) s).keyv = false) ∧
  (∀ t : State, t.keyv = false →
    exec .enc t = .next (t.failed .noKey 0x13) ∧ exec .dec t = .next (t.failed .noKey 0x14) ∧
    exec .fenc t = .next (t.failed .noKey 0x20) ∧ exec .fdec t = .next (t.failed .noKey 0x21) ∧
    exec .sealFrame t = .next (t.failed .noKey 0x40) ∧
    exec .openFrame t = .next (t.failed .noKey 0x41)) ∧
  (∀ (a : Access) (t : State), t.keyv = false → (applyAccess a t).keyv = false) ∧
  (∀ (i : Instr) (t u : State), t.keyv = false → i ≠ .derive → exec i t = .next u → u.keyv = false) ∧
  ∀ t : State, ∃ u, exec .derive t = .next u ∧ u.keyv = true

/-- The token cannot be read through the window: the answer to every access is the same whatever TOKEN
holds. -/
def Obligations.TokenIsNotReadable : Prop :=
  ∀ (s : State) (x : Block) (a : Access), answerOf a { s with token := x } = answerOf a s

/-- R290: the two reset sources, a reset turn and a CTRL write with SRST = 1, have the same effect, busy or
not; every register is then at its reset value, nothing is pending, and the engine performs nothing by
itself. What DBUF then holds is the draw, of which nothing is said. -/
def Obligations.ResetSourcesAndEffect : Prop :=
  ∀ s : State,
    (∀ v : Word, v.getLsbD 1 = true → applyAccess (.write .w32 0x004 v) s = s.hardReset) ∧
    takeTurn .reset s = .next s.hardReset ∧
    s.hardReset.ie = false ∧ s.hardReset.cmd = 0 ∧ s.hardReset.statusWord = 0 ∧
    s.hardReset.errinfoWord = 0 ∧ (∀ r, s.hardReset.opReg r = 0) ∧
    s.hardReset.token = Vector.replicate 16 0x00 ∧ s.hardReset.key = Vector.replicate 16 0x00 ∧
    s.hardReset.iv = Vector.replicate 16 0x00 ∧ s.hardReset.digest = Vector.replicate 16 0x00 ∧
    s.hardReset.irq = false ∧ s.hardReset.busy = false ∧
    answerOf (.read .w32 0x000) s.hardReset = .data 0x4D49494F ∧ engineTurn s.hardReset = .next s.hardReset

/-- For the host program (R95, R66, R302): a line that accesses the port performs exactly that access on the
engine; after a permitted one the program stands past the line, and a read line has named the value; after a
bus error the run is a faulted run and executes no further line. That the program is part of the state is
the model's choice (assumption log entry 4). -/
def Obligations.ProgramLineIsOneAccess : Prop :=
  ∀ s : State,
    (∀ (k : Nat) (l : Line) (a : Access), s.host.faulted = false → s.host.StandsAt k l →
      ((∃ w off v, l = .wr w off v ∧ a = .write w off v) ∨ ∃ w off n, l = .rd w off n ∧ a = .read w off) →
      { lineTurn s with host := s.host } = hostAccess a s ∧
      ((lineTurn s).RunFaulted ↔ answerOf a s = .busError) ∧
      (answerOf a s = .busError → (lineTurn s).host = { s.host with faulted := true })) ∧
    (∀ (k : Nat) (w : Width) (off : Nat) (v : Word), s.host.faulted = false →
      s.host.StandsAt k (.wr w off v) → answerOf (.write w off v) s = .written →
      (lineTurn s).host = { s.host with pos := k + 1 }) ∧
    (∀ (k : Nat) (w : Width) (off : Nat) (n : String) (v : Word), s.host.faulted = false →
      s.host.StandsAt k (.rd w off n) → answerOf (.read w off) s = .data v →
      (lineTurn s).host = { s.host with pos := k + 1, values := (n, v) :: s.host.values }) ∧
    (s.host.faulted = true → lineTurn s = s)

/-- For the host program (R95): `bnz` goes to its label when the value last read under its name has a bit of
the mask, `bz` when it has none, and the other way the program goes past the line; nothing but its place
changes. At its end, with only labels left, it does nothing. That the program is part of the state, and that
of two equal labels the first counts, is the model's choice (assumption log entry 4). -/
def Obligations.BranchLinesTestTheLastValue : Prop :=
  ∀ s : State,
    (∀ (k p : Nat) (n target : String) (m v : Word), s.host.faulted = false → s.host.LastRead n v →
      s.host.LabelAt target p →
      (s.host.StandsAt k (.bnz n m target) →
        lineTurn s = { s with host := { s.host with pos := if v &&& m ≠ 0 then p else k + 1 } }) ∧
      (s.host.StandsAt k (.bz n m target) →
        lineTurn s = { s with host := { s.host with pos := if v &&& m = 0 then p else k + 1 } })) ∧
    ((∀ l ∈ s.host.lines.drop s.host.pos, ∃ n, l = .label n) → lineTurn s = s)

end HostPort

section Machine

/-- The state after reset meets the invariant, for every legal buffer size. How the state holds the size and
the unwritten bytes is the model's choice (assumption log entries 1 and 2). -/
def Obligations.ResetMeetsTheInvariant : Prop :=
  State.reset.Inv ∧ ∀ p : Params, (State.resetWith p).Inv

/-- Every step keeps the invariant: the written bytes stay one canonical list inside the buffer, DONE and
ERR are never both 1, a pending command stands over cleared flags, every error is named, and while KEYV = 1
KEY and IV are those of the present TOKEN. -/
def Obligations.StepKeepsTheInvariant : Prop :=
  ∀ s t : State, s.Inv → step s = .next t → t.Inv

/-- No step stops: from every state whatever, a step answers a next state. No command reaches past DBUF, no
word is left without a meaning, no access stops the machine. -/
def Obligations.StepNeverStops : Prop :=
  ∀ s : State, ∃ t, step s = .next t

end Machine
end

