-- ==== Sys2Proof/Laws/Bytes.lean ====
section
/-! SUPPORT. Lengths and entries of the byte sequences the commands build, and the shape of the MD5 padding
and of cipher-block chaining. -/

namespace Sys2Proof.Machine

@[simp] theorem be16_length (v : Nat) : (be16 v).length = 2 := rfl

@[simp] theorem be32_length (v : Word) : (be32 v).length = 4 := rfl

@[simp] theorem leBytes_length (v : Word) : (leBytes v).length = 4 := rfl

@[simp] theorem padBytes_length (n : Nat) : (padBytes n).length = n := by simp [padBytes]

/-- The pad length is between 1 and 16, and completes the last block (spec/41_cipher.md R149). -/
theorem padLength_spec (len : Nat) :
    1 ≤ padLength len ∧ padLength len ≤ 16 ∧ (len + padLength len) % 16 = 0 := by
  simp only [padLength, blockBytes]
  omega

/-- The block of a 16-byte list holds that list. -/
theorem Block.toList_ofList (l : List Byte) (h : l.length = 16) : (Block.ofList l).toList = l := by
  apply List.ext_getElem
  · simp [h]
  · intro i h1 h2
    simp [Block.ofList, List.getD_eq_getElem?_getD, h2]

/-- The block of a block's own bytes is that block. -/
theorem Block.ofList_toList (b : Block) : Block.ofList b.toList = b := by
  apply Vector.ext
  intro i h
  simp [Block.ofList, List.getD_eq_getElem?_getD]

/-- The zero bytes of the padding complete it to 56 modulo 64, and no smaller number does
(spec/40_md5.md R110). -/
theorem md5Zeros_least (len : Nat) :
    (len + 1 + md5Zeros len) % 64 = 56 ∧ ∀ z, (len + 1 + z) % 64 = 56 → md5Zeros len ≤ z := by
  simp only [md5Zeros]
  constructor
  · omega
  · intro z hz
    omega

@[simp] theorem le64_length (v : Nat) : (le64 v).length = 8 := by simp [le64]

@[simp] theorem blocksOf_length (m : Nat) : ∀ p : List Byte, (blocksOf m p).length = m := by
  induction m with
  | zero => intro p; rfl
  | succ m ih => intro p; simp [blocksOf, ih]

@[simp] theorem cbcEncBlocks_length (k : Block) (ps : List Block) :
    ∀ prev, (cbcEncBlocks k prev ps).length = ps.length := by
  induction ps with
  | nil => intro prev; rfl
  | cons p ps ih => intro prev; simp [cbcEncBlocks, ih]

@[simp] theorem cbcDecBlocks_length (k : Block) (cs : List Block) :
    ∀ prev, (cbcDecBlocks k prev cs).length = cs.length := by
  induction cs with
  | nil => intro prev; rfl
  | cons c cs ih => intro prev; simp [cbcDecBlocks, ih]

/-- The bytes of a list of blocks: 16 for each. -/
@[simp] theorem flatMap_toList_length (bs : List Block) :
    (bs.flatMap Vector.toList).length = 16 * bs.length := by
  induction bs with
  | nil => rfl
  | cons b bs ih => simp [ih]; omega

/-- Encryption keeps the length of a whole number of blocks (spec/41_cipher.md R146). -/
theorem cbcEnc_length (k iv : Block) (p : List Byte) (h : p.length % 16 = 0) :
    (cbcEnc k iv p).length = p.length := by
  simp only [cbcEnc, flatMap_toList_length, cbcEncBlocks_length, blocksOf_length, blockBytes]
  omega

/-- Decryption keeps the length of a whole number of blocks (spec/41_cipher.md R147). -/
theorem cbcDec_length (k iv : Block) (c : List Byte) (h : c.length % 16 = 0) :
    (cbcDec k iv c).length = c.length := by
  simp only [cbcDec, flatMap_toList_length, cbcDecBlocks_length, blocksOf_length, blockBytes]
  omega

/-- Blocks read from a concatenation of blocks are those blocks. -/
theorem blocksOf_flatMap (bs : List Block) :
    blocksOf bs.length (bs.flatMap Vector.toList) = bs := by
  induction bs with
  | nil => rfl
  | cons b bs ih =>
    have h16 : b.toList.length = 16 := by simp
    simp only [List.length_cons, List.flatMap_cons, blocksOf, blockBytes]
    rw [List.take_left' h16, List.drop_left' h16, ih, Block.ofList_toList]

/-- The blocks of a whole number of blocks make up the sequence again. -/
theorem flatMap_blocksOf (m : Nat) : ∀ p : List Byte, p.length = 16 * m →
    (blocksOf m p).flatMap Vector.toList = p := by
  induction m with
  | zero => intro p h; simpa [blocksOf] using (List.eq_nil_of_length_eq_zero h).symm
  | succ m ih =>
    intro p h
    simp only [blocksOf, blockBytes, List.flatMap_cons]
    rw [Block.toList_ofList _ (by simp; omega), ih _ (by simp; omega), List.take_append_drop]

end Sys2Proof.Machine
end

