-- ==== Sys2Proof/Laws/Memory.lean ====
section
/-! SUPPORT. The laws of the written bytes of DBUF: read after write, a write leaves every other index
alone, and every write keeps the canonical form and the bound. -/

namespace Sys2Proof.Machine

@[simp] theorem Memory.get_nil (a : Nat) : Memory.get [] a = none := rfl

@[simp] theorem Memory.poke_nil (m : Memory) (a : Nat) : m.poke a [] = m := rfl

theorem Memory.poke_cons (m : Memory) (a : Nat) (b : Byte) (bs : List Byte) :
    m.poke a (b :: bs) = (m.set a b).poke (a + 1) bs := rfl

/-- What a read gives after a write. -/
theorem Memory.get_set (m : Memory) (a : Nat) (b : Byte) (c : Nat) :
    (m.set a b).get c = if c = a then some b else m.get c := by
  induction m with
  | nil => simp only [Memory.set, Memory.get]
  | cons e m ih =>
    obtain ⟨k, v⟩ := e
    simp only [Memory.set]
    split
    · simp only [Memory.get]
    · split
      · rename_i h
        subst h
        simp only [Memory.get]
        split <;> rfl
      · simp only [Memory.get, ih]
        split <;> split <;> simp_all

/-- What a read gives after a write of several bytes. -/
theorem Memory.get_poke (bs : List Byte) : ∀ (m : Memory) (a c : Nat),
    (m.poke a bs).get c =
      if a ≤ c ∧ c < a + bs.length then some (bs.getD (c - a) 0) else m.get c := by
  induction bs with
  | nil => intro m a c; rw [if_neg (by simp)]; rfl
  | cons b bs ih =>
    intro m a c
    rw [Memory.poke_cons, ih, Memory.get_set]
    by_cases hc : c = a
    · subst hc; simp
    · by_cases h : a ≤ c ∧ c < a + (b :: bs).length
      · have h' : a + 1 ≤ c ∧ c < a + 1 + bs.length := by
          simp only [List.length_cons] at h
          omega
        rw [if_pos h', if_pos h]
        obtain ⟨d, hd⟩ : ∃ d, c - a = d + 1 := ⟨c - a - 1, by omega⟩
        have hd' : c - (a + 1) = d := by omega
        rw [hd, hd']
        rfl
      · have h' : ¬(a + 1 ≤ c ∧ c < a + 1 + bs.length) := by simp at h; omega
        rw [if_neg h', if_neg h, if_neg hc]

/-- The head of a written list is the smaller of its old head and the written index. -/
theorem Memory.set_head (m : Memory) (a : Nat) (b : Byte) (k : Nat)
    (hm : ∀ c ∈ m.head?, k < c.1) (ha : k < a) : ∀ c ∈ (m.set a b).head?, k < c.1 := by
  cases m with
  | nil => simpa [Memory.set] using ha
  | cons e m =>
    obtain ⟨k', v'⟩ := e
    simp at hm
    simp only [Memory.set]
    split
    · simpa using ha
    · split
      · simpa using ha
      · simpa using hm

/-- The canonical form, one entry at a time. -/
theorem Memory.wf_cons (k : Nat) (v : Byte) (m : Memory) :
    Memory.wf ((k, v) :: m) = true ↔ (∀ c ∈ m.head?, k < c.1) ∧ m.wf = true := by
  cases m with
  | nil => simp [Memory.wf]
  | cons e m => simp [Memory.wf]

/-- A write keeps the canonical form. -/
theorem Memory.set_wf (m : Memory) (a : Nat) (b : Byte) (h : m.wf = true) : (m.set a b).wf = true := by
  induction m with
  | nil => rfl
  | cons e m ih =>
    obtain ⟨k, v⟩ := e
    have hm := (Memory.wf_cons k v m).mp h
    simp only [Memory.set]
    split
    · rename_i hlt
      exact (Memory.wf_cons _ _ _).mpr ⟨by simpa using hlt, h⟩
    · split
      · rename_i heq
        subst heq
        exact (Memory.wf_cons _ _ _).mpr hm
      · exact (Memory.wf_cons _ _ _).mpr
          ⟨Memory.set_head m a b k hm.1 (by omega), ih hm.2⟩

/-- A write of several bytes keeps the canonical form. -/
theorem Memory.poke_wf (bs : List Byte) : ∀ (m : Memory) (a : Nat), m.wf = true →
    (m.poke a bs).wf = true := by
  induction bs with
  | nil => exact fun _ _ h => h
  | cons b bs ih => exact fun m a h => ih _ _ (Memory.set_wf m a b h)

/-- A write inside the buffer leaves all written indices inside it. -/
theorem Memory.set_within (size : Nat) (m : Memory) (a : Nat) (b : Byte)
    (h : m.within size = true) (ha : a < size) : (m.set a b).within size = true := by
  induction m with
  | nil => simpa [Memory.set, Memory.within] using ha
  | cons e m ih =>
    obtain ⟨k, v⟩ := e
    simp only [Memory.within, List.all_cons, Bool.and_eq_true] at h ih ⊢
    simp only [Memory.set]
    split
    · simp only [List.all_cons, Bool.and_eq_true, decide_eq_true_eq]
      exact ⟨ha, by simpa using h.1, h.2⟩
    · split
      · simp only [List.all_cons, Bool.and_eq_true, decide_eq_true_eq]
        exact ⟨ha, h.2⟩
      · simp only [List.all_cons, Bool.and_eq_true, decide_eq_true_eq]
        exact ⟨by simpa using h.1, ih h.2⟩

/-- A write of several bytes inside the buffer leaves all written indices inside it. -/
theorem Memory.poke_within (size : Nat) (bs : List Byte) : ∀ (m : Memory) (a : Nat),
    m.within size = true → a + bs.length ≤ size → (m.poke a bs).within size = true := by
  induction bs with
  | nil => exact fun _ _ h _ => h
  | cons b bs ih =>
    intro m a h ha
    have hl : a + (bs.length + 1) ≤ size := by simpa using ha
    exact ih _ _ (Memory.set_within size m a b h (by omega)) (by omega)

/-- In the canonical form an index before the first written one has no byte. -/
theorem Memory.get_lt_head (m : Memory) (k : Nat) (h : m.wf = true) (hk : ∀ c ∈ m.head?, k < c.1) :
    m.get k = none := by
  induction m with
  | nil => rfl
  | cons e m ih =>
    obtain ⟨j, v⟩ := e
    have hj : k < j := by simpa using hk
    have hm := (Memory.wf_cons j v m).mp h
    simp only [Memory.get]
    rw [if_neg (by omega)]
    exact ih hm.2 fun c hc => Nat.lt_trans hj (hm.1 c hc)

/-- Equal contents are equal data: two canonical lists that give every index the same byte are equal. -/
theorem Memory.ext_of_wf (m : Memory) : ∀ (n : Memory), m.wf = true → n.wf = true →
    (∀ a, m.get a = n.get a) → m = n := by
  induction m with
  | nil =>
    intro n _ _ h
    cases n with
    | nil => rfl
    | cons e n => have := h e.1; simp [Memory.get] at this
  | cons e m ih =>
    intro n hm hn h
    obtain ⟨k, v⟩ := e
    cases n with
    | nil => have := h k; simp [Memory.get] at this
    | cons f n =>
      obtain ⟨j, w⟩ := f
      have hm' := (Memory.wf_cons k v m).mp hm
      have hn' := (Memory.wf_cons j w n).mp hn
      have hkj : k = j := by
        rcases Nat.lt_trichotomy k j with hlt | heq | hgt
        · have := h k
          rw [Memory.get_lt_head _ k hn (by simpa using hlt)] at this
          simp [Memory.get] at this
        · exact heq
        · have := h j
          rw [Memory.get_lt_head _ j hm (by simpa using hgt)] at this
          simp [Memory.get] at this
      subst hkj
      have hv : v = w := by have := h k; simpa [Memory.get] using this
      subst hv
      have hrest : ∀ a, Memory.get m a = Memory.get n a := by
        intro a
        by_cases ha : a = k
        · subst ha
          rw [Memory.get_lt_head m a hm'.2 hm'.1, Memory.get_lt_head n a hn'.2 hn'.1]
        · have := h a; simpa [Memory.get, ha] using this
      rw [ih n hm'.2 hn'.2 hrest]

end Sys2Proof.Machine
end

