-- ==== Sys2Proof/Laws/State.lean ====
section
/-! SUPPORT. One lemma per field of `State` per update, true by rfl, so that no later proof unfolds a
record update. -/

namespace Sys2Proof.Machine

section pokeFields
variable (s : State) (a : Nat) (bs : List Byte)

@[simp] theorem State.poke_ie : (s.poke a bs).ie = s.ie := rfl
@[simp] theorem State.poke_cmd : (s.poke a bs).cmd = s.cmd := rfl
@[simp] theorem State.poke_busy : (s.poke a bs).busy = s.busy := rfl
@[simp] theorem State.poke_done : (s.poke a bs).done = s.done := rfl
@[simp] theorem State.poke_err : (s.poke a bs).err = s.err := rfl
@[simp] theorem State.poke_keyv : (s.poke a bs).keyv = s.keyv := rfl
@[simp] theorem State.poke_ovr : (s.poke a bs).ovr = s.ovr := rfl
@[simp] theorem State.poke_errCode : (s.poke a bs).errCode = s.errCode := rfl
@[simp] theorem State.poke_errOp : (s.poke a bs).errOp = s.errOp := rfl
@[simp] theorem State.poke_blen : (s.poke a bs).blen = s.blen := rfl
@[simp] theorem State.poke_flen : (s.poke a bs).flen = s.flen := rfl
@[simp] theorem State.poke_hoff : (s.poke a bs).hoff = s.hoff := rfl
@[simp] theorem State.poke_hlen : (s.poke a bs).hlen = s.hlen := rfl
@[simp] theorem State.poke_devid : (s.poke a bs).devid = s.devid := rfl
@[simp] theorem State.poke_stamp : (s.poke a bs).stamp = s.stamp := rfl
@[simp] theorem State.poke_token : (s.poke a bs).token = s.token := rfl
@[simp] theorem State.poke_key : (s.poke a bs).key = s.key := rfl
@[simp] theorem State.poke_iv : (s.poke a bs).iv = s.iv := rfl
@[simp] theorem State.poke_digest : (s.poke a bs).digest = s.digest := rfl
@[simp] theorem State.poke_dbuf : (s.poke a bs).dbuf = s.dbuf.poke a bs := rfl
@[simp] theorem State.poke_params : (s.poke a bs).params = s.params := rfl
@[simp] theorem State.poke_resets : (s.poke a bs).resets = s.resets := rfl
@[simp] theorem State.poke_agenda : (s.poke a bs).agenda = s.agenda := rfl
@[simp] theorem State.poke_answers : (s.poke a bs).answers = s.answers := rfl
@[simp] theorem State.poke_host : (s.poke a bs).host = s.host := rfl

end pokeFields

section finishDoneFields
variable (s : State)

@[simp] theorem State.finishDone_ie : (s.finishDone).ie = s.ie := rfl
@[simp] theorem State.finishDone_cmd : (s.finishDone).cmd = s.cmd := rfl
@[simp] theorem State.finishDone_busy : (s.finishDone).busy = false := rfl
@[simp] theorem State.finishDone_done : (s.finishDone).done = true := rfl
@[simp] theorem State.finishDone_err : (s.finishDone).err = s.err := rfl
@[simp] theorem State.finishDone_keyv : (s.finishDone).keyv = s.keyv := rfl
@[simp] theorem State.finishDone_ovr : (s.finishDone).ovr = s.ovr := rfl
@[simp] theorem State.finishDone_errCode : (s.finishDone).errCode = s.errCode := rfl
@[simp] theorem State.finishDone_errOp : (s.finishDone).errOp = s.errOp := rfl
@[simp] theorem State.finishDone_blen : (s.finishDone).blen = s.blen := rfl
@[simp] theorem State.finishDone_flen : (s.finishDone).flen = s.flen := rfl
@[simp] theorem State.finishDone_hoff : (s.finishDone).hoff = s.hoff := rfl
@[simp] theorem State.finishDone_hlen : (s.finishDone).hlen = s.hlen := rfl
@[simp] theorem State.finishDone_devid : (s.finishDone).devid = s.devid := rfl
@[simp] theorem State.finishDone_stamp : (s.finishDone).stamp = s.stamp := rfl
@[simp] theorem State.finishDone_token : (s.finishDone).token = s.token := rfl
@[simp] theorem State.finishDone_key : (s.finishDone).key = s.key := rfl
@[simp] theorem State.finishDone_iv : (s.finishDone).iv = s.iv := rfl
@[simp] theorem State.finishDone_digest : (s.finishDone).digest = s.digest := rfl
@[simp] theorem State.finishDone_dbuf : (s.finishDone).dbuf = s.dbuf := rfl
@[simp] theorem State.finishDone_params : (s.finishDone).params = s.params := rfl
@[simp] theorem State.finishDone_resets : (s.finishDone).resets = s.resets := rfl
@[simp] theorem State.finishDone_agenda : (s.finishDone).agenda = s.agenda := rfl
@[simp] theorem State.finishDone_answers : (s.finishDone).answers = s.answers := rfl
@[simp] theorem State.finishDone_host : (s.finishDone).host = s.host := rfl

end finishDoneFields

section finishErrFields
variable (s : State) (code : ErrCode) (op : Byte)

@[simp] theorem State.finishErr_ie : (s.finishErr code op).ie = s.ie := rfl
@[simp] theorem State.finishErr_cmd : (s.finishErr code op).cmd = s.cmd := rfl
@[simp] theorem State.finishErr_busy : (s.finishErr code op).busy = false := rfl
@[simp] theorem State.finishErr_done : (s.finishErr code op).done = s.done := rfl
@[simp] theorem State.finishErr_err : (s.finishErr code op).err = true := rfl
@[simp] theorem State.finishErr_keyv : (s.finishErr code op).keyv = s.keyv := rfl
@[simp] theorem State.finishErr_ovr : (s.finishErr code op).ovr = s.ovr := rfl
@[simp] theorem State.finishErr_errCode : (s.finishErr code op).errCode = code := rfl
@[simp] theorem State.finishErr_errOp : (s.finishErr code op).errOp = op := rfl
@[simp] theorem State.finishErr_blen : (s.finishErr code op).blen = s.blen := rfl
@[simp] theorem State.finishErr_flen : (s.finishErr code op).flen = s.flen := rfl
@[simp] theorem State.finishErr_hoff : (s.finishErr code op).hoff = s.hoff := rfl
@[simp] theorem State.finishErr_hlen : (s.finishErr code op).hlen = s.hlen := rfl
@[simp] theorem State.finishErr_devid : (s.finishErr code op).devid = s.devid := rfl
@[simp] theorem State.finishErr_stamp : (s.finishErr code op).stamp = s.stamp := rfl
@[simp] theorem State.finishErr_token : (s.finishErr code op).token = s.token := rfl
@[simp] theorem State.finishErr_key : (s.finishErr code op).key = s.key := rfl
@[simp] theorem State.finishErr_iv : (s.finishErr code op).iv = s.iv := rfl
@[simp] theorem State.finishErr_digest : (s.finishErr code op).digest = s.digest := rfl
@[simp] theorem State.finishErr_dbuf : (s.finishErr code op).dbuf = s.dbuf := rfl
@[simp] theorem State.finishErr_params : (s.finishErr code op).params = s.params := rfl
@[simp] theorem State.finishErr_resets : (s.finishErr code op).resets = s.resets := rfl
@[simp] theorem State.finishErr_agenda : (s.finishErr code op).agenda = s.agenda := rfl
@[simp] theorem State.finishErr_answers : (s.finishErr code op).answers = s.answers := rfl
@[simp] theorem State.finishErr_host : (s.finishErr code op).host = s.host := rfl

end finishErrFields

section writeStatusFields
variable (s : State) (v : Word)

@[simp] theorem State.writeStatus_ie : (s.writeStatus v).ie = s.ie := rfl
@[simp] theorem State.writeStatus_cmd : (s.writeStatus v).cmd = s.cmd := rfl
@[simp] theorem State.writeStatus_busy : (s.writeStatus v).busy = s.busy := rfl
@[simp] theorem State.writeStatus_done : (s.writeStatus v).done = (s.done && !v.getLsbD 1) := rfl
@[simp] theorem State.writeStatus_err : (s.writeStatus v).err = (s.err && !v.getLsbD 2) := rfl
@[simp] theorem State.writeStatus_keyv : (s.writeStatus v).keyv = s.keyv := rfl
@[simp] theorem State.writeStatus_ovr : (s.writeStatus v).ovr = (s.ovr && !v.getLsbD 4) := rfl
@[simp] theorem State.writeStatus_errCode : (s.writeStatus v).errCode = s.errCode := rfl
@[simp] theorem State.writeStatus_errOp : (s.writeStatus v).errOp = s.errOp := rfl
@[simp] theorem State.writeStatus_blen : (s.writeStatus v).blen = s.blen := rfl
@[simp] theorem State.writeStatus_flen : (s.writeStatus v).flen = s.flen := rfl
@[simp] theorem State.writeStatus_hoff : (s.writeStatus v).hoff = s.hoff := rfl
@[simp] theorem State.writeStatus_hlen : (s.writeStatus v).hlen = s.hlen := rfl
@[simp] theorem State.writeStatus_devid : (s.writeStatus v).devid = s.devid := rfl
@[simp] theorem State.writeStatus_stamp : (s.writeStatus v).stamp = s.stamp := rfl
@[simp] theorem State.writeStatus_token : (s.writeStatus v).token = s.token := rfl
@[simp] theorem State.writeStatus_key : (s.writeStatus v).key = s.key := rfl
@[simp] theorem State.writeStatus_iv : (s.writeStatus v).iv = s.iv := rfl
@[simp] theorem State.writeStatus_digest : (s.writeStatus v).digest = s.digest := rfl
@[simp] theorem State.writeStatus_dbuf : (s.writeStatus v).dbuf = s.dbuf := rfl
@[simp] theorem State.writeStatus_params : (s.writeStatus v).params = s.params := rfl
@[simp] theorem State.writeStatus_resets : (s.writeStatus v).resets = s.resets := rfl
@[simp] theorem State.writeStatus_agenda : (s.writeStatus v).agenda = s.agenda := rfl
@[simp] theorem State.writeStatus_answers : (s.writeStatus v).answers = s.answers := rfl
@[simp] theorem State.writeStatus_host : (s.writeStatus v).host = s.host := rfl

end writeStatusFields

section acceptFields
variable (s : State) (w : Word)

@[simp] theorem State.accept_ie : (s.accept w).ie = s.ie := rfl
@[simp] theorem State.accept_cmd : (s.accept w).cmd = w := rfl
@[simp] theorem State.accept_busy : (s.accept w).busy = true := rfl
@[simp] theorem State.accept_done : (s.accept w).done = false := rfl
@[simp] theorem State.accept_err : (s.accept w).err = false := rfl
@[simp] theorem State.accept_keyv : (s.accept w).keyv = s.keyv := rfl
@[simp] theorem State.accept_ovr : (s.accept w).ovr = s.ovr := rfl
@[simp] theorem State.accept_errCode : (s.accept w).errCode = ErrCode.none := rfl
@[simp] theorem State.accept_errOp : (s.accept w).errOp = 0 := rfl
@[simp] theorem State.accept_blen : (s.accept w).blen = s.blen := rfl
@[simp] theorem State.accept_flen : (s.accept w).flen = s.flen := rfl
@[simp] theorem State.accept_hoff : (s.accept w).hoff = s.hoff := rfl
@[simp] theorem State.accept_hlen : (s.accept w).hlen = s.hlen := rfl
@[simp] theorem State.accept_devid : (s.accept w).devid = s.devid := rfl
@[simp] theorem State.accept_stamp : (s.accept w).stamp = s.stamp := rfl
@[simp] theorem State.accept_token : (s.accept w).token = s.token := rfl
@[simp] theorem State.accept_key : (s.accept w).key = s.key := rfl
@[simp] theorem State.accept_iv : (s.accept w).iv = s.iv := rfl
@[simp] theorem State.accept_digest : (s.accept w).digest = s.digest := rfl
@[simp] theorem State.accept_dbuf : (s.accept w).dbuf = s.dbuf := rfl
@[simp] theorem State.accept_params : (s.accept w).params = s.params := rfl
@[simp] theorem State.accept_resets : (s.accept w).resets = s.resets := rfl
@[simp] theorem State.accept_agenda : (s.accept w).agenda = s.agenda := rfl
@[simp] theorem State.accept_answers : (s.accept w).answers = s.answers := rfl
@[simp] theorem State.accept_host : (s.accept w).host = s.host := rfl

end acceptFields

section overrunFields
variable (s : State)

@[simp] theorem State.overrun_ie : (s.overrun).ie = s.ie := rfl
@[simp] theorem State.overrun_cmd : (s.overrun).cmd = s.cmd := rfl
@[simp] theorem State.overrun_busy : (s.overrun).busy = s.busy := rfl
@[simp] theorem State.overrun_done : (s.overrun).done = s.done := rfl
@[simp] theorem State.overrun_err : (s.overrun).err = s.err := rfl
@[simp] theorem State.overrun_keyv : (s.overrun).keyv = s.keyv := rfl
@[simp] theorem State.overrun_ovr : (s.overrun).ovr = true := rfl
@[simp] theorem State.overrun_errCode : (s.overrun).errCode = s.errCode := rfl
@[simp] theorem State.overrun_errOp : (s.overrun).errOp = s.errOp := rfl
@[simp] theorem State.overrun_blen : (s.overrun).blen = s.blen := rfl
@[simp] theorem State.overrun_flen : (s.overrun).flen = s.flen := rfl
@[simp] theorem State.overrun_hoff : (s.overrun).hoff = s.hoff := rfl
@[simp] theorem State.overrun_hlen : (s.overrun).hlen = s.hlen := rfl
@[simp] theorem State.overrun_devid : (s.overrun).devid = s.devid := rfl
@[simp] theorem State.overrun_stamp : (s.overrun).stamp = s.stamp := rfl
@[simp] theorem State.overrun_token : (s.overrun).token = s.token := rfl
@[simp] theorem State.overrun_key : (s.overrun).key = s.key := rfl
@[simp] theorem State.overrun_iv : (s.overrun).iv = s.iv := rfl
@[simp] theorem State.overrun_digest : (s.overrun).digest = s.digest := rfl
@[simp] theorem State.overrun_dbuf : (s.overrun).dbuf = s.dbuf := rfl
@[simp] theorem State.overrun_params : (s.overrun).params = s.params := rfl
@[simp] theorem State.overrun_resets : (s.overrun).resets = s.resets := rfl
@[simp] theorem State.overrun_agenda : (s.overrun).agenda = s.agenda := rfl
@[simp] theorem State.overrun_answers : (s.overrun).answers = s.answers := rfl
@[simp] theorem State.overrun_host : (s.overrun).host = s.host := rfl

end overrunFields

section hardResetFields
variable (s : State)

@[simp] theorem State.hardReset_ie : (s.hardReset).ie = false := rfl
@[simp] theorem State.hardReset_cmd : (s.hardReset).cmd = 0 := rfl
@[simp] theorem State.hardReset_busy : (s.hardReset).busy = false := rfl
@[simp] theorem State.hardReset_done : (s.hardReset).done = false := rfl
@[simp] theorem State.hardReset_err : (s.hardReset).err = false := rfl
@[simp] theorem State.hardReset_keyv : (s.hardReset).keyv = false := rfl
@[simp] theorem State.hardReset_ovr : (s.hardReset).ovr = false := rfl
@[simp] theorem State.hardReset_errCode : (s.hardReset).errCode = ErrCode.none := rfl
@[simp] theorem State.hardReset_errOp : (s.hardReset).errOp = 0 := rfl
@[simp] theorem State.hardReset_blen : (s.hardReset).blen = 0 := rfl
@[simp] theorem State.hardReset_flen : (s.hardReset).flen = 0 := rfl
@[simp] theorem State.hardReset_hoff : (s.hardReset).hoff = 0 := rfl
@[simp] theorem State.hardReset_hlen : (s.hardReset).hlen = 0 := rfl
@[simp] theorem State.hardReset_devid : (s.hardReset).devid = 0 := rfl
@[simp] theorem State.hardReset_stamp : (s.hardReset).stamp = 0 := rfl
@[simp] theorem State.hardReset_token : (s.hardReset).token = zeroBlock := rfl
@[simp] theorem State.hardReset_key : (s.hardReset).key = zeroBlock := rfl
@[simp] theorem State.hardReset_iv : (s.hardReset).iv = zeroBlock := rfl
@[simp] theorem State.hardReset_digest : (s.hardReset).digest = zeroBlock := rfl
@[simp] theorem State.hardReset_dbuf : (s.hardReset).dbuf = [] := rfl
@[simp] theorem State.hardReset_params : (s.hardReset).params = s.params := rfl
@[simp] theorem State.hardReset_resets : (s.hardReset).resets = s.resets + 1 := rfl
@[simp] theorem State.hardReset_agenda : (s.hardReset).agenda = s.agenda := rfl
@[simp] theorem State.hardReset_answers : (s.hardReset).answers = s.answers := rfl
@[simp] theorem State.hardReset_host : (s.hardReset).host = s.host := rfl

end hardResetFields

section setIeFields
variable (s : State) (b : Bool)

@[simp] theorem State.setIe_ie : (s.setIe b).ie = b := rfl
@[simp] theorem State.setIe_cmd : (s.setIe b).cmd = s.cmd := rfl
@[simp] theorem State.setIe_busy : (s.setIe b).busy = s.busy := rfl
@[simp] theorem State.setIe_done : (s.setIe b).done = s.done := rfl
@[simp] theorem State.setIe_err : (s.setIe b).err = s.err := rfl
@[simp] theorem State.setIe_keyv : (s.setIe b).keyv = s.keyv := rfl
@[simp] theorem State.setIe_ovr : (s.setIe b).ovr = s.ovr := rfl
@[simp] theorem State.setIe_errCode : (s.setIe b).errCode = s.errCode := rfl
@[simp] theorem State.setIe_errOp : (s.setIe b).errOp = s.errOp := rfl
@[simp] theorem State.setIe_blen : (s.setIe b).blen = s.blen := rfl
@[simp] theorem State.setIe_flen : (s.setIe b).flen = s.flen := rfl
@[simp] theorem State.setIe_hoff : (s.setIe b).hoff = s.hoff := rfl
@[simp] theorem State.setIe_hlen : (s.setIe b).hlen = s.hlen := rfl
@[simp] theorem State.setIe_devid : (s.setIe b).devid = s.devid := rfl
@[simp] theorem State.setIe_stamp : (s.setIe b).stamp = s.stamp := rfl
@[simp] theorem State.setIe_token : (s.setIe b).token = s.token := rfl
@[simp] theorem State.setIe_key : (s.setIe b).key = s.key := rfl
@[simp] theorem State.setIe_iv : (s.setIe b).iv = s.iv := rfl
@[simp] theorem State.setIe_digest : (s.setIe b).digest = s.digest := rfl
@[simp] theorem State.setIe_dbuf : (s.setIe b).dbuf = s.dbuf := rfl
@[simp] theorem State.setIe_params : (s.setIe b).params = s.params := rfl
@[simp] theorem State.setIe_resets : (s.setIe b).resets = s.resets := rfl
@[simp] theorem State.setIe_agenda : (s.setIe b).agenda = s.agenda := rfl
@[simp] theorem State.setIe_answers : (s.setIe b).answers = s.answers := rfl
@[simp] theorem State.setIe_host : (s.setIe b).host = s.host := rfl

end setIeFields

section setBlenFields
variable (s : State) (n : Nat)

@[simp] theorem State.setBlen_ie : (s.setBlen n).ie = s.ie := rfl
@[simp] theorem State.setBlen_cmd : (s.setBlen n).cmd = s.cmd := rfl
@[simp] theorem State.setBlen_busy : (s.setBlen n).busy = s.busy := rfl
@[simp] theorem State.setBlen_done : (s.setBlen n).done = s.done := rfl
@[simp] theorem State.setBlen_err : (s.setBlen n).err = s.err := rfl
@[simp] theorem State.setBlen_keyv : (s.setBlen n).keyv = s.keyv := rfl
@[simp] theorem State.setBlen_ovr : (s.setBlen n).ovr = s.ovr := rfl
@[simp] theorem State.setBlen_errCode : (s.setBlen n).errCode = s.errCode := rfl
@[simp] theorem State.setBlen_errOp : (s.setBlen n).errOp = s.errOp := rfl
@[simp] theorem State.setBlen_blen : (s.setBlen n).blen = BitVec.ofNat 32 n := rfl
@[simp] theorem State.setBlen_flen : (s.setBlen n).flen = s.flen := rfl
@[simp] theorem State.setBlen_hoff : (s.setBlen n).hoff = s.hoff := rfl
@[simp] theorem State.setBlen_hlen : (s.setBlen n).hlen = s.hlen := rfl
@[simp] theorem State.setBlen_devid : (s.setBlen n).devid = s.devid := rfl
@[simp] theorem State.setBlen_stamp : (s.setBlen n).stamp = s.stamp := rfl
@[simp] theorem State.setBlen_token : (s.setBlen n).token = s.token := rfl
@[simp] theorem State.setBlen_key : (s.setBlen n).key = s.key := rfl
@[simp] theorem State.setBlen_iv : (s.setBlen n).iv = s.iv := rfl
@[simp] theorem State.setBlen_digest : (s.setBlen n).digest = s.digest := rfl
@[simp] theorem State.setBlen_dbuf : (s.setBlen n).dbuf = s.dbuf := rfl
@[simp] theorem State.setBlen_params : (s.setBlen n).params = s.params := rfl
@[simp] theorem State.setBlen_resets : (s.setBlen n).resets = s.resets := rfl
@[simp] theorem State.setBlen_agenda : (s.setBlen n).agenda = s.agenda := rfl
@[simp] theorem State.setBlen_answers : (s.setBlen n).answers = s.answers := rfl
@[simp] theorem State.setBlen_host : (s.setBlen n).host = s.host := rfl

end setBlenFields

section setFlenFields
variable (s : State) (n : Nat)

@[simp] theorem State.setFlen_ie : (s.setFlen n).ie = s.ie := rfl
@[simp] theorem State.setFlen_cmd : (s.setFlen n).cmd = s.cmd := rfl
@[simp] theorem State.setFlen_busy : (s.setFlen n).busy = s.busy := rfl
@[simp] theorem State.setFlen_done : (s.setFlen n).done = s.done := rfl
@[simp] theorem State.setFlen_err : (s.setFlen n).err = s.err := rfl
@[simp] theorem State.setFlen_keyv : (s.setFlen n).keyv = s.keyv := rfl
@[simp] theorem State.setFlen_ovr : (s.setFlen n).ovr = s.ovr := rfl
@[simp] theorem State.setFlen_errCode : (s.setFlen n).errCode = s.errCode := rfl
@[simp] theorem State.setFlen_errOp : (s.setFlen n).errOp = s.errOp := rfl
@[simp] theorem State.setFlen_blen : (s.setFlen n).blen = s.blen := rfl
@[simp] theorem State.setFlen_flen : (s.setFlen n).flen = BitVec.ofNat 32 n := rfl
@[simp] theorem State.setFlen_hoff : (s.setFlen n).hoff = s.hoff := rfl
@[simp] theorem State.setFlen_hlen : (s.setFlen n).hlen = s.hlen := rfl
@[simp] theorem State.setFlen_devid : (s.setFlen n).devid = s.devid := rfl
@[simp] theorem State.setFlen_stamp : (s.setFlen n).stamp = s.stamp := rfl
@[simp] theorem State.setFlen_token : (s.setFlen n).token = s.token := rfl
@[simp] theorem State.setFlen_key : (s.setFlen n).key = s.key := rfl
@[simp] theorem State.setFlen_iv : (s.setFlen n).iv = s.iv := rfl
@[simp] theorem State.setFlen_digest : (s.setFlen n).digest = s.digest := rfl
@[simp] theorem State.setFlen_dbuf : (s.setFlen n).dbuf = s.dbuf := rfl
@[simp] theorem State.setFlen_params : (s.setFlen n).params = s.params := rfl
@[simp] theorem State.setFlen_resets : (s.setFlen n).resets = s.resets := rfl
@[simp] theorem State.setFlen_agenda : (s.setFlen n).agenda = s.agenda := rfl
@[simp] theorem State.setFlen_answers : (s.setFlen n).answers = s.answers := rfl
@[simp] theorem State.setFlen_host : (s.setFlen n).host = s.host := rfl

end setFlenFields

section setDigestFields
variable (s : State) (d : Block)

@[simp] theorem State.setDigest_ie : (s.setDigest d).ie = s.ie := rfl
@[simp] theorem State.setDigest_cmd : (s.setDigest d).cmd = s.cmd := rfl
@[simp] theorem State.setDigest_busy : (s.setDigest d).busy = s.busy := rfl
@[simp] theorem State.setDigest_done : (s.setDigest d).done = s.done := rfl
@[simp] theorem State.setDigest_err : (s.setDigest d).err = s.err := rfl
@[simp] theorem State.setDigest_keyv : (s.setDigest d).keyv = s.keyv := rfl
@[simp] theorem State.setDigest_ovr : (s.setDigest d).ovr = s.ovr := rfl
@[simp] theorem State.setDigest_errCode : (s.setDigest d).errCode = s.errCode := rfl
@[simp] theorem State.setDigest_errOp : (s.setDigest d).errOp = s.errOp := rfl
@[simp] theorem State.setDigest_blen : (s.setDigest d).blen = s.blen := rfl
@[simp] theorem State.setDigest_flen : (s.setDigest d).flen = s.flen := rfl
@[simp] theorem State.setDigest_hoff : (s.setDigest d).hoff = s.hoff := rfl
@[simp] theorem State.setDigest_hlen : (s.setDigest d).hlen = s.hlen := rfl
@[simp] theorem State.setDigest_devid : (s.setDigest d).devid = s.devid := rfl
@[simp] theorem State.setDigest_stamp : (s.setDigest d).stamp = s.stamp := rfl
@[simp] theorem State.setDigest_token : (s.setDigest d).token = s.token := rfl
@[simp] theorem State.setDigest_key : (s.setDigest d).key = s.key := rfl
@[simp] theorem State.setDigest_iv : (s.setDigest d).iv = s.iv := rfl
@[simp] theorem State.setDigest_digest : (s.setDigest d).digest = d := rfl
@[simp] theorem State.setDigest_dbuf : (s.setDigest d).dbuf = s.dbuf := rfl
@[simp] theorem State.setDigest_params : (s.setDigest d).params = s.params := rfl
@[simp] theorem State.setDigest_resets : (s.setDigest d).resets = s.resets := rfl
@[simp] theorem State.setDigest_agenda : (s.setDigest d).agenda = s.agenda := rfl
@[simp] theorem State.setDigest_answers : (s.setDigest d).answers = s.answers := rfl
@[simp] theorem State.setDigest_host : (s.setDigest d).host = s.host := rfl

end setDigestFields

section setKeysFields
variable (s : State) (k v : Block)

@[simp] theorem State.setKeys_ie : (s.setKeys k v).ie = s.ie := rfl
@[simp] theorem State.setKeys_cmd : (s.setKeys k v).cmd = s.cmd := rfl
@[simp] theorem State.setKeys_busy : (s.setKeys k v).busy = s.busy := rfl
@[simp] theorem State.setKeys_done : (s.setKeys k v).done = s.done := rfl
@[simp] theorem State.setKeys_err : (s.setKeys k v).err = s.err := rfl
@[simp] theorem State.setKeys_keyv : (s.setKeys k v).keyv = true := rfl
@[simp] theorem State.setKeys_ovr : (s.setKeys k v).ovr = s.ovr := rfl
@[simp] theorem State.setKeys_errCode : (s.setKeys k v).errCode = s.errCode := rfl
@[simp] theorem State.setKeys_errOp : (s.setKeys k v).errOp = s.errOp := rfl
@[simp] theorem State.setKeys_blen : (s.setKeys k v).blen = s.blen := rfl
@[simp] theorem State.setKeys_flen : (s.setKeys k v).flen = s.flen := rfl
@[simp] theorem State.setKeys_hoff : (s.setKeys k v).hoff = s.hoff := rfl
@[simp] theorem State.setKeys_hlen : (s.setKeys k v).hlen = s.hlen := rfl
@[simp] theorem State.setKeys_devid : (s.setKeys k v).devid = s.devid := rfl
@[simp] theorem State.setKeys_stamp : (s.setKeys k v).stamp = s.stamp := rfl
@[simp] theorem State.setKeys_token : (s.setKeys k v).token = s.token := rfl
@[simp] theorem State.setKeys_key : (s.setKeys k v).key = k := rfl
@[simp] theorem State.setKeys_iv : (s.setKeys k v).iv = v := rfl
@[simp] theorem State.setKeys_digest : (s.setKeys k v).digest = s.digest := rfl
@[simp] theorem State.setKeys_dbuf : (s.setKeys k v).dbuf = s.dbuf := rfl
@[simp] theorem State.setKeys_params : (s.setKeys k v).params = s.params := rfl
@[simp] theorem State.setKeys_resets : (s.setKeys k v).resets = s.resets := rfl
@[simp] theorem State.setKeys_agenda : (s.setKeys k v).agenda = s.agenda := rfl
@[simp] theorem State.setKeys_answers : (s.setKeys k v).answers = s.answers := rfl
@[simp] theorem State.setKeys_host : (s.setKeys k v).host = s.host := rfl

end setKeysFields

section writeTokenFields
variable (s : State) (i : Nat) (bs : List Byte)

@[simp] theorem State.writeToken_ie : (s.writeToken i bs).ie = s.ie := rfl
@[simp] theorem State.writeToken_cmd : (s.writeToken i bs).cmd = s.cmd := rfl
@[simp] theorem State.writeToken_busy : (s.writeToken i bs).busy = s.busy := rfl
@[simp] theorem State.writeToken_done : (s.writeToken i bs).done = s.done := rfl
@[simp] theorem State.writeToken_err : (s.writeToken i bs).err = s.err := rfl
@[simp] theorem State.writeToken_keyv : (s.writeToken i bs).keyv = false := rfl
@[simp] theorem State.writeToken_ovr : (s.writeToken i bs).ovr = s.ovr := rfl
@[simp] theorem State.writeToken_errCode : (s.writeToken i bs).errCode = s.errCode := rfl
@[simp] theorem State.writeToken_errOp : (s.writeToken i bs).errOp = s.errOp := rfl
@[simp] theorem State.writeToken_blen : (s.writeToken i bs).blen = s.blen := rfl
@[simp] theorem State.writeToken_flen : (s.writeToken i bs).flen = s.flen := rfl
@[simp] theorem State.writeToken_hoff : (s.writeToken i bs).hoff = s.hoff := rfl
@[simp] theorem State.writeToken_hlen : (s.writeToken i bs).hlen = s.hlen := rfl
@[simp] theorem State.writeToken_devid : (s.writeToken i bs).devid = s.devid := rfl
@[simp] theorem State.writeToken_stamp : (s.writeToken i bs).stamp = s.stamp := rfl
@[simp] theorem State.writeToken_token : (s.writeToken i bs).token = Vector.ofFn fun j => if i ≤ j.val ∧ j.val < i + bs.length then bs.getD (j.val - i) 0 else s.token[j] := rfl
@[simp] theorem State.writeToken_key : (s.writeToken i bs).key = s.key := rfl
@[simp] theorem State.writeToken_iv : (s.writeToken i bs).iv = s.iv := rfl
@[simp] theorem State.writeToken_digest : (s.writeToken i bs).digest = s.digest := rfl
@[simp] theorem State.writeToken_dbuf : (s.writeToken i bs).dbuf = s.dbuf := rfl
@[simp] theorem State.writeToken_params : (s.writeToken i bs).params = s.params := rfl
@[simp] theorem State.writeToken_resets : (s.writeToken i bs).resets = s.resets := rfl
@[simp] theorem State.writeToken_agenda : (s.writeToken i bs).agenda = s.agenda := rfl
@[simp] theorem State.writeToken_answers : (s.writeToken i bs).answers = s.answers := rfl
@[simp] theorem State.writeToken_host : (s.writeToken i bs).host = s.host := rfl

end writeTokenFields

section setAgendaFields
variable (s : State) (ts : List Turn)

@[simp] theorem State.setAgenda_ie : (s.setAgenda ts).ie = s.ie := rfl
@[simp] theorem State.setAgenda_cmd : (s.setAgenda ts).cmd = s.cmd := rfl
@[simp] theorem State.setAgenda_busy : (s.setAgenda ts).busy = s.busy := rfl
@[simp] theorem State.setAgenda_done : (s.setAgenda ts).done = s.done := rfl
@[simp] theorem State.setAgenda_err : (s.setAgenda ts).err = s.err := rfl
@[simp] theorem State.setAgenda_keyv : (s.setAgenda ts).keyv = s.keyv := rfl
@[simp] theorem State.setAgenda_ovr : (s.setAgenda ts).ovr = s.ovr := rfl
@[simp] theorem State.setAgenda_errCode : (s.setAgenda ts).errCode = s.errCode := rfl
@[simp] theorem State.setAgenda_errOp : (s.setAgenda ts).errOp = s.errOp := rfl
@[simp] theorem State.setAgenda_blen : (s.setAgenda ts).blen = s.blen := rfl
@[simp] theorem State.setAgenda_flen : (s.setAgenda ts).flen = s.flen := rfl
@[simp] theorem State.setAgenda_hoff : (s.setAgenda ts).hoff = s.hoff := rfl
@[simp] theorem State.setAgenda_hlen : (s.setAgenda ts).hlen = s.hlen := rfl
@[simp] theorem State.setAgenda_devid : (s.setAgenda ts).devid = s.devid := rfl
@[simp] theorem State.setAgenda_stamp : (s.setAgenda ts).stamp = s.stamp := rfl
@[simp] theorem State.setAgenda_token : (s.setAgenda ts).token = s.token := rfl
@[simp] theorem State.setAgenda_key : (s.setAgenda ts).key = s.key := rfl
@[simp] theorem State.setAgenda_iv : (s.setAgenda ts).iv = s.iv := rfl
@[simp] theorem State.setAgenda_digest : (s.setAgenda ts).digest = s.digest := rfl
@[simp] theorem State.setAgenda_dbuf : (s.setAgenda ts).dbuf = s.dbuf := rfl
@[simp] theorem State.setAgenda_params : (s.setAgenda ts).params = s.params := rfl
@[simp] theorem State.setAgenda_resets : (s.setAgenda ts).resets = s.resets := rfl
@[simp] theorem State.setAgenda_agenda : (s.setAgenda ts).agenda = ts := rfl
@[simp] theorem State.setAgenda_answers : (s.setAgenda ts).answers = s.answers := rfl
@[simp] theorem State.setAgenda_host : (s.setAgenda ts).host = s.host := rfl

end setAgendaFields

section addAnswerFields
variable (s : State) (x : Answer)

@[simp] theorem State.addAnswer_ie : (s.addAnswer x).ie = s.ie := rfl
@[simp] theorem State.addAnswer_cmd : (s.addAnswer x).cmd = s.cmd := rfl
@[simp] theorem State.addAnswer_busy : (s.addAnswer x).busy = s.busy := rfl
@[simp] theorem State.addAnswer_done : (s.addAnswer x).done = s.done := rfl
@[simp] theorem State.addAnswer_err : (s.addAnswer x).err = s.err := rfl
@[simp] theorem State.addAnswer_keyv : (s.addAnswer x).keyv = s.keyv := rfl
@[simp] theorem State.addAnswer_ovr : (s.addAnswer x).ovr = s.ovr := rfl
@[simp] theorem State.addAnswer_errCode : (s.addAnswer x).errCode = s.errCode := rfl
@[simp] theorem State.addAnswer_errOp : (s.addAnswer x).errOp = s.errOp := rfl
@[simp] theorem State.addAnswer_blen : (s.addAnswer x).blen = s.blen := rfl
@[simp] theorem State.addAnswer_flen : (s.addAnswer x).flen = s.flen := rfl
@[simp] theorem State.addAnswer_hoff : (s.addAnswer x).hoff = s.hoff := rfl
@[simp] theorem State.addAnswer_hlen : (s.addAnswer x).hlen = s.hlen := rfl
@[simp] theorem State.addAnswer_devid : (s.addAnswer x).devid = s.devid := rfl
@[simp] theorem State.addAnswer_stamp : (s.addAnswer x).stamp = s.stamp := rfl
@[simp] theorem State.addAnswer_token : (s.addAnswer x).token = s.token := rfl
@[simp] theorem State.addAnswer_key : (s.addAnswer x).key = s.key := rfl
@[simp] theorem State.addAnswer_iv : (s.addAnswer x).iv = s.iv := rfl
@[simp] theorem State.addAnswer_digest : (s.addAnswer x).digest = s.digest := rfl
@[simp] theorem State.addAnswer_dbuf : (s.addAnswer x).dbuf = s.dbuf := rfl
@[simp] theorem State.addAnswer_params : (s.addAnswer x).params = s.params := rfl
@[simp] theorem State.addAnswer_resets : (s.addAnswer x).resets = s.resets := rfl
@[simp] theorem State.addAnswer_agenda : (s.addAnswer x).agenda = s.agenda := rfl
@[simp] theorem State.addAnswer_answers : (s.addAnswer x).answers = x :: s.answers := rfl
@[simp] theorem State.addAnswer_host : (s.addAnswer x).host = s.host := rfl

end addAnswerFields

section setHostFields
variable (s : State) (h : HostProgram)

@[simp] theorem State.setHost_ie : (s.setHost h).ie = s.ie := rfl
@[simp] theorem State.setHost_cmd : (s.setHost h).cmd = s.cmd := rfl
@[simp] theorem State.setHost_busy : (s.setHost h).busy = s.busy := rfl
@[simp] theorem State.setHost_done : (s.setHost h).done = s.done := rfl
@[simp] theorem State.setHost_err : (s.setHost h).err = s.err := rfl
@[simp] theorem State.setHost_keyv : (s.setHost h).keyv = s.keyv := rfl
@[simp] theorem State.setHost_ovr : (s.setHost h).ovr = s.ovr := rfl
@[simp] theorem State.setHost_errCode : (s.setHost h).errCode = s.errCode := rfl
@[simp] theorem State.setHost_errOp : (s.setHost h).errOp = s.errOp := rfl
@[simp] theorem State.setHost_blen : (s.setHost h).blen = s.blen := rfl
@[simp] theorem State.setHost_flen : (s.setHost h).flen = s.flen := rfl
@[simp] theorem State.setHost_hoff : (s.setHost h).hoff = s.hoff := rfl
@[simp] theorem State.setHost_hlen : (s.setHost h).hlen = s.hlen := rfl
@[simp] theorem State.setHost_devid : (s.setHost h).devid = s.devid := rfl
@[simp] theorem State.setHost_stamp : (s.setHost h).stamp = s.stamp := rfl
@[simp] theorem State.setHost_token : (s.setHost h).token = s.token := rfl
@[simp] theorem State.setHost_key : (s.setHost h).key = s.key := rfl
@[simp] theorem State.setHost_iv : (s.setHost h).iv = s.iv := rfl
@[simp] theorem State.setHost_digest : (s.setHost h).digest = s.digest := rfl
@[simp] theorem State.setHost_dbuf : (s.setHost h).dbuf = s.dbuf := rfl
@[simp] theorem State.setHost_params : (s.setHost h).params = s.params := rfl
@[simp] theorem State.setHost_resets : (s.setHost h).resets = s.resets := rfl
@[simp] theorem State.setHost_agenda : (s.setHost h).agenda = s.agenda := rfl
@[simp] theorem State.setHost_answers : (s.setHost h).answers = s.answers := rfl
@[simp] theorem State.setHost_host : (s.setHost h).host = h := rfl

end setHostFields

section setOpRegFields
variable (s : State) (r : OpReg) (v : Word)

@[simp] theorem State.setOpReg_ie : (s.setOpReg r v).ie = s.ie := by cases r <;> rfl
@[simp] theorem State.setOpReg_cmd : (s.setOpReg r v).cmd = s.cmd := by cases r <;> rfl
@[simp] theorem State.setOpReg_busy : (s.setOpReg r v).busy = s.busy := by cases r <;> rfl
@[simp] theorem State.setOpReg_done : (s.setOpReg r v).done = s.done := by cases r <;> rfl
@[simp] theorem State.setOpReg_err : (s.setOpReg r v).err = s.err := by cases r <;> rfl
@[simp] theorem State.setOpReg_keyv : (s.setOpReg r v).keyv = s.keyv := by cases r <;> rfl
@[simp] theorem State.setOpReg_ovr : (s.setOpReg r v).ovr = s.ovr := by cases r <;> rfl
@[simp] theorem State.setOpReg_errCode : (s.setOpReg r v).errCode = s.errCode := by cases r <;> rfl
@[simp] theorem State.setOpReg_errOp : (s.setOpReg r v).errOp = s.errOp := by cases r <;> rfl
@[simp] theorem State.setOpReg_blen :
    (s.setOpReg r v).blen = if r = .blen then v else s.blen := by cases r <;> rfl
@[simp] theorem State.setOpReg_flen :
    (s.setOpReg r v).flen = if r = .flen then v else s.flen := by cases r <;> rfl
@[simp] theorem State.setOpReg_hoff :
    (s.setOpReg r v).hoff = if r = .hoff then v else s.hoff := by cases r <;> rfl
@[simp] theorem State.setOpReg_hlen :
    (s.setOpReg r v).hlen = if r = .hlen then v else s.hlen := by cases r <;> rfl
@[simp] theorem State.setOpReg_devid :
    (s.setOpReg r v).devid = if r = .devid then v else s.devid := by cases r <;> rfl
@[simp] theorem State.setOpReg_stamp :
    (s.setOpReg r v).stamp = if r = .stamp then v else s.stamp := by cases r <;> rfl
@[simp] theorem State.setOpReg_token : (s.setOpReg r v).token = s.token := by cases r <;> rfl
@[simp] theorem State.setOpReg_key : (s.setOpReg r v).key = s.key := by cases r <;> rfl
@[simp] theorem State.setOpReg_iv : (s.setOpReg r v).iv = s.iv := by cases r <;> rfl
@[simp] theorem State.setOpReg_digest : (s.setOpReg r v).digest = s.digest := by cases r <;> rfl
@[simp] theorem State.setOpReg_dbuf : (s.setOpReg r v).dbuf = s.dbuf := by cases r <;> rfl
@[simp] theorem State.setOpReg_params : (s.setOpReg r v).params = s.params := by cases r <;> rfl
@[simp] theorem State.setOpReg_resets : (s.setOpReg r v).resets = s.resets := by cases r <;> rfl
@[simp] theorem State.setOpReg_agenda : (s.setOpReg r v).agenda = s.agenda := by cases r <;> rfl
@[simp] theorem State.setOpReg_answers : (s.setOpReg r v).answers = s.answers := by cases r <;> rfl
@[simp] theorem State.setOpReg_host : (s.setOpReg r v).host = s.host := by cases r <;> rfl

/-- An operand register reads what was written to it, and writing one leaves the others (R30 to R35). -/
@[simp] theorem State.opReg_setOpReg (q : OpReg) :
    (s.setOpReg r v).opReg q = if r = q then v else s.opReg q := by
  cases r <;> cases q <;> rfl

end setOpRegFields

end Sys2Proof.Machine
end

