-- ==== Sys2Proof/Laws/Ops.lean ====
section
/-! SUPPORT. What each shared operation can do, said once: reading and writing DBUF, the range-checked
primitives of the commands, and the ways a command ends. -/

namespace Sys2Proof.Machine

/-- Every legal buffer has 64 to 65536 bytes (spec/00_scope.md R5). -/
theorem State.dbufBytes_bounds (s : State) : 64 ≤ s.dbufBytes ∧ s.dbufBytes ≤ 65536 := by
  have h : s.params.sizeExp.val ≤ 10 := by omega
  constructor
  · have : (2 : Nat) ^ 6 ≤ 2 ^ (6 + s.params.sizeExp.val) := Nat.pow_le_pow_right (by omega) (by omega)
    exact this
  · have : (2 : Nat) ^ (6 + s.params.sizeExp.val) ≤ 2 ^ 16 := Nat.pow_le_pow_right (by omega) (by omega)
    exact this

@[simp] theorem State.dbufBytes_of_params (s t : State) (h : t.params = s.params) :
    t.dbufBytes = s.dbufBytes := by simp [State.dbufBytes, h]

@[simp] theorem State.poke_dbufBytes (s : State) (a : Nat) (bs : List Byte) :
    (s.poke a bs).dbufBytes = s.dbufBytes := rfl

@[simp] theorem State.poke_bodyLen (s : State) (a : Nat) (bs : List Byte) :
    (s.poke a bs).bodyLen = s.bodyLen := rfl

@[simp] theorem State.poke_frameLen (s : State) (a : Nat) (bs : List Byte) :
    (s.poke a bs).frameLen = s.frameLen := rfl

/-- What a byte of DBUF reads as depends on the written bytes and the number of resets alone. -/
theorem State.byte_congr (s t : State) (hd : t.dbuf = s.dbuf) (hr : t.resets = s.resets) (i : Nat) :
    t.byte i = s.byte i := by simp [State.byte, hd, hr]

/-- A byte of DBUF after a write: the written one inside the range, the old one outside (R77, R78). -/
theorem State.byte_poke (s : State) (a : Nat) (bs : List Byte) (i : Nat) :
    (s.poke a bs).byte i =
      if a ≤ i ∧ i < a + bs.length then bs.getD (i - a) 0 else s.byte i := by
  simp only [State.byte, State.poke, Memory.get_poke]
  split <;> rfl

@[simp] theorem State.peek_length (s : State) (a n : Nat) : (s.peek a n).length = n := by
  simp [State.peek]

theorem State.peek_getElem (s : State) (a n i : Nat) (h : i < (s.peek a n).length) :
    (s.peek a n)[i] = s.byte (a + i) := by simp [State.peek]

/-- Two states read the same bytes in a region if they do so one by one. -/
theorem State.peek_congr (s t : State) (a n : Nat) (h : ∀ i, i < n → t.byte (a + i) = s.byte (a + i)) :
    t.peek a n = s.peek a n := by
  apply List.ext_getElem <;> simp [State.peek]
  exact fun i hi => h i hi

/-- Reading back what was just written. -/
theorem State.peek_poke_same (s : State) (a : Nat) (bs : List Byte) :
    (s.poke a bs).peek a bs.length = bs := by
  apply List.ext_getElem
  · simp
  · intro i h1 h2
    rw [State.peek_getElem, State.byte_poke, if_pos ⟨by omega, by omega⟩]
    simp [List.getD_eq_getElem?_getD, h2]

/-- Reading a region a write does not touch. -/
theorem State.peek_poke_disjoint (s : State) (a : Nat) (bs : List Byte) (b n : Nat)
    (h : b + n ≤ a ∨ a + bs.length ≤ b) : (s.poke a bs).peek b n = s.peek b n := by
  apply State.peek_congr
  intro i hi
  rw [State.byte_poke, if_neg (by omega)]

/-- A region is the concatenation of its two parts. -/
theorem State.peek_append (s : State) (a m n : Nat) :
    s.peek a (m + n) = s.peek a m ++ s.peek (a + m) n := by
  apply List.ext_getElem
  · simp
  · intro i h1 h2
    rw [State.peek_getElem]
    by_cases hi : i < m
    · rw [List.getElem_append_left (by simpa using hi), State.peek_getElem]
    · rw [List.getElem_append_right (by simpa using hi), State.peek_getElem]
      congr 1
      simp
      omega

/-- `MemRead` inside the buffer. -/
@[simp] theorem State.memRead_of_le (s : State) (a n : Nat) (k : List Byte → CmdEnd)
    (h : a + n ≤ s.dbufBytes) : s.memRead a n k = k (s.peek a n) := if_pos h

/-- `MemWrite` inside the buffer. -/
@[simp] theorem State.memWrite_of_le (s : State) (a : Nat) (bs : List Byte) (k : State → CmdEnd)
    (h : a + bs.length ≤ s.dbufBytes) : s.memWrite a bs k = k (s.poke a bs) := if_pos h

/-- All that `MemRead` can do. -/
theorem State.memRead_cases (s : State) (a n : Nat) (k : List Byte → CmdEnd) :
    (a + n ≤ s.dbufBytes ∧ s.memRead a n k = k (s.peek a n)) ∨
      (s.dbufBytes < a + n ∧ s.memRead a n k = .fault .outsideDbuf) := by
  unfold State.memRead
  split
  · exact .inl ⟨‹_›, rfl⟩
  · exact .inr ⟨by omega, rfl⟩

/-- All that `MemWrite` can do. -/
theorem State.memWrite_cases (s : State) (a : Nat) (bs : List Byte) (k : State → CmdEnd) :
    (a + bs.length ≤ s.dbufBytes ∧ s.memWrite a bs k = k (s.poke a bs)) ∨
      (s.dbufBytes < a + bs.length ∧ s.memWrite a bs k = .fault .outsideDbuf) := by
  unfold State.memWrite
  split
  · exact .inl ⟨‹_›, rfl⟩
  · exact .inr ⟨by omega, rfl⟩

@[simp] theorem CmdEnd.andThen_complete (s : State) (k : State → CmdEnd) :
    (CmdEnd.complete s).andThen k = k s := rfl

@[simp] theorem CmdEnd.andThen_raised (c : ErrCode) (op : Byte) (s : State) (k : State → CmdEnd) :
    (CmdEnd.raised c op s).andThen k = .raised c op s := rfl

@[simp] theorem CmdEnd.andThen_fault (f : Fault) (k : State → CmdEnd) :
    (CmdEnd.fault f).andThen k = .fault f := rfl

@[simp] theorem CmdEnd.finish_complete (s : State) :
    (CmdEnd.complete s).finish = .next s.finishDone := rfl

@[simp] theorem CmdEnd.finish_raised (c : ErrCode) (op : Byte) (s : State) :
    (CmdEnd.raised c op s).finish = .next (s.finishErr c op) := rfl

@[simp] theorem CmdEnd.finish_fault (f : Fault) : (CmdEnd.fault f).finish = .fault f := rfl

/-- All the ways `perform` of a part and its rest can complete (R223, R257). -/
theorem CmdEnd.andThen_eq_complete (r : CmdEnd) (k : State → CmdEnd) (t : State)
    (h : r.andThen k = .complete t) : ∃ s, r = .complete s ∧ k s = .complete t := by
  cases r with
  | complete s => exact ⟨s, rfl, h⟩
  | raised c op s => cases h
  | fault f => cases h

/-- All the ways `perform` of a part and its rest can end in an error (R257). -/
theorem CmdEnd.andThen_eq_raised (r : CmdEnd) (k : State → CmdEnd) (c : ErrCode) (op : Byte) (t : State)
    (h : r.andThen k = .raised c op t) :
    r = .raised c op t ∨ ∃ s, r = .complete s ∧ k s = .raised c op t := by
  cases r with
  | complete s => exact .inr ⟨s, rfl, h⟩
  | raised c' op' s => exact .inl h
  | fault f => cases h

/-- What the completion part of an engine step can leave (R45, R250). -/
theorem CmdEnd.finish_eq_next (r : CmdEnd) (t : State) (h : r.finish = .next t) :
    (∃ s, r = .complete s ∧ t = s.finishDone) ∨
      (∃ c op s, r = .raised c op s ∧ t = s.finishErr c op) := by
  cases r with
  | complete s => exact .inl ⟨s, rfl, by cases h; rfl⟩
  | raised c op s => exact .inr ⟨c, op, s, rfl, by cases h; rfl⟩
  | fault f => cases h

/-- A command's end is never a refusal. -/
theorem CmdEnd.finish_ne_refused (r : CmdEnd) (x : Refusal) : r.finish ≠ .refused x := by
  cases r <;> simp

/-- A CMD write when idle (R27, R45). -/
@[simp] theorem State.writeCmd_idle (s : State) (w : Word) (h : s.busy = false) :
    s.writeCmd w = s.accept w := by simp [State.writeCmd, h]

/-- A CMD write when busy (R262). -/
@[simp] theorem State.writeCmd_busy (s : State) (w : Word) (h : s.busy = true) :
    s.writeCmd w = s.overrun := by simp [State.writeCmd, h]

/-- A CTRL write with SRST = 1 (R26). -/
theorem State.writeCtrl_reset (s : State) (v : Word) (h : v.getLsbD 1 = true) :
    s.writeCtrl v = s.hardReset := if_pos h

/-- A CTRL write with SRST = 0 (R26). -/
theorem State.writeCtrl_ie (s : State) (v : Word) (h : v.getLsbD 1 = false) :
    s.writeCtrl v = s.setIe (v.getLsbD 0) := if_neg (ne_true_of_eq_false h)

/-- A write of a token byte range, one byte at a time (R36). -/
theorem State.writeToken_getElem (s : State) (i : Nat) (bs : List Byte) (j : Nat) (h : j < 16) :
    (s.writeToken i bs).token[j] =
      if i ≤ j ∧ j < i + bs.length then bs.getD (j - i) 0 else s.token[j] := by
  simp

end Sys2Proof.Machine
end

