-- ==== Sys2Proof/Laws/HostPort.lean ====
section
/-! SUPPORT. What an access of the host port can do, said once. -/

namespace Sys2Proof.Machine

/-- A read leaves the state (spec/20_memory.md R68). -/
@[simp] theorem applyAccess_read (w : Width) (off : Nat) (s : State) :
    applyAccess (.read w off) s = s := rfl

/-- A permitted write. -/
theorem applyAccess_write (w : Width) (off : Nat) (v : Word) (s : State)
    (h : permitted s w off = true) :
    applyAccess (.write w off v) s = writeRegion s w v (regionOf off) := if_pos h

/-- A refused write leaves the state (R66). -/
theorem applyAccess_refused (w : Width) (off : Nat) (v : Word) (s : State)
    (h : permitted s w off = false) : applyAccess (.write w off v) s = s :=
  if_neg (ne_true_of_eq_false h)

/-- All that an access can leave: nothing changed, or one permitted write to the region at its offset. -/
theorem applyAccess_cases (a : Access) (s : State) :
    applyAccess a s = s ∨
      ∃ w off v, a = .write w off v ∧ permitted s w off = true ∧
        applyAccess a s = writeRegion s w v (regionOf off) := by
  cases a with
  | read w off => exact .inl rfl
  | write w off v =>
    cases h : permitted s w off with
    | true => exact .inr ⟨w, off, v, rfl, h, applyAccess_write w off v s h⟩
    | false => exact .inl (applyAccess_refused w off v s h)

/-- A permitted write to the DBUF window stays inside the buffer (R65). -/
theorem permitted_dbuf (s : State) (w : Width) (off : Nat) (h : permitted s w off = true)
    (ho : 0x10000 ≤ off) : off - 0x10000 + widthBytes w ≤ s.dbufBytes := by
  simp only [permitted, insideDbuf, Bool.and_eq_true, Bool.or_eq_true, decide_eq_true_eq] at h
  omega

/-- A permitted access lies in the 17-bit register window (spec/00_scope.md R5). -/
theorem permitted_lt_window (s : State) (w : Width) (off : Nat) (h : permitted s w off = true) :
    off + widthBytes w ≤ 2 ^ 17 := by
  have hw : widthBytes w ≤ 4 := by cases w <;> decide
  have hd := s.dbufBytes_bounds.2
  by_cases ho : 0x10000 ≤ off
  · have := permitted_dbuf s w off h ho
    omega
  · omega

/-- No data state is reached while a command is pending (spec/70_reset_and_hazards.md R294). -/
theorem permitted_busy (s : State) (w : Width) (off : Nat) (h : permitted s w off = true)
    (hb : s.busy = true) : (regionOf off).isData = false := by
  simpa [permitted, hb] using And.right (by simpa [permitted, hb] using h)

/-- An offset of the register file is a 32-bit register or reserved. -/
theorem regionOf_word (off : Nat) (h : off < 0x40) : regionOf off = wordRegion (off / 4) := if_pos h

/-- An offset of the DBUF window (R60). -/
theorem regionOf_dbuf (i : Nat) : regionOf (0x10000 + i) = .dbuf i := by
  unfold regionOf
  repeat rw [if_neg (by omega)]
  rw [Nat.add_sub_cancel_left]

end Sys2Proof.Machine
end

