-- ==== Sys2Proof/Laws/HostProgram.lean ====
section
/-! SUPPORT. Where a host program stands, what it has read and where its labels are, said once for the
functions that find them (spec/30_encoding.md R95). -/

namespace Sys2Proof.Machine

/-- Labels are passed over up to the first line that is none. -/
theorem skipLabels_of_line (lines : List Line) : ∀ (pos d : Nat) (l : Line), lines[d]? = some l →
    l.labelName = none → (∀ j, j < d → ∃ n, lines[j]? = some (.label n)) →
    skipLabels lines pos = pos + d := by
  induction lines with
  | nil => intro pos d l h; simp at h
  | cons x xs ih =>
    intro pos d l h hl hj
    cases d with
    | zero =>
      simp only [List.getElem?_cons_zero, Option.some.injEq] at h
      subst h
      cases x <;> simp_all [skipLabels, Line.labelName]
    | succ d =>
      obtain ⟨n, hn⟩ := hj 0 (Nat.succ_pos d)
      simp only [List.getElem?_cons_zero, Option.some.injEq] at hn
      subst hn
      rw [skipLabels, ih (pos + 1) d l (by simpa using h) hl
        (fun j hjd => by simpa using hj (j + 1) (Nat.succ_lt_succ hjd))]
      omega

/-- Nothing but labels is passed over to the end. -/
theorem skipLabels_of_labels (lines : List Line) : ∀ pos, (∀ l ∈ lines, ∃ n, l = .label n) →
    skipLabels lines pos = pos + lines.length := by
  induction lines with
  | nil => intro pos _; rfl
  | cons x xs ih =>
    intro pos h
    obtain ⟨n, rfl⟩ := h x List.mem_cons_self
    rw [skipLabels, ih _ (fun l hl => h l (List.mem_cons_of_mem _ hl)), List.length_cons]
    omega

/-- The next position of a program that stands at a line. -/
theorem HostProgram.nextPos_of_standsAt (h : HostProgram) (k : Nat) (l : Line) (hs : h.StandsAt k l) :
    h.nextPos = k := by
  obtain ⟨hp, hk, hl, hj⟩ := hs
  rw [HostProgram.nextPos, skipLabels_of_line (h.lines.drop h.pos) h.pos (k - h.pos) l
    (by rw [List.getElem?_drop, Nat.add_sub_cancel' hp]; exact hk) hl
    (fun j hjk => by rw [List.getElem?_drop]; exact hj _ (by omega) (by omega))]
  omega

/-- The next line of a program that stands at a line. -/
theorem HostProgram.nextLine_of_standsAt (h : HostProgram) (k : Nat) (l : Line) (hs : h.StandsAt k l) :
    h.nextLine = some l := by
  rw [HostProgram.nextLine, h.nextPos_of_standsAt k l hs, hs.2.1]

/-- The value found under a name is the last one read. -/
theorem HostProgram.valueOf_of_lastRead (h : HostProgram) (n : String) (v : Word) (hl : h.LastRead n v) :
    valueOf h.values n = some v := by
  obtain ⟨later, earlier, e, hx⟩ := hl
  have hn : later.find? (fun x => decide (x.1 = n)) = none := by simpa using hx
  simp [valueOf, e, List.find?_append, hn]

/-- The place found for a label is its first. -/
theorem HostProgram.labelPos_of_labelAt (h : HostProgram) (n : String) (p : Nat) (hl : h.LabelAt n p) :
    labelPos h.lines n = some p := by
  obtain ⟨hp, hq⟩ := hl
  obtain ⟨hlt, e⟩ := List.getElem?_eq_some_iff.mp hp
  rw [labelPos, List.findIdx?_eq_some_iff_getElem]
  refine ⟨hlt, by simp [e], fun j hj => ?_⟩
  simpa [List.getElem?_eq_getElem (Nat.lt_trans hj hlt)] using hq j hj

end Sys2Proof.Machine
end

