-- ==== Sys2Proof/Laws/PerInstr.lean ====
section
/-! SUPPORT. The family of statements made per command: its word, written by the encoder, passes the two
checks of a command word (spec/30_encoding.md R90, R92), which are written apart from the decoder. -/

namespace Sys2Proof.Laws.EncodedWord

/-- The command word of `i` has `RSV = 0` and an assigned `OPC`. -/
def Statement (i : Instr) : Prop := commandWordWf (encode i) = true

theorem nop : Statement .nop := by rfl
theorem md5 : Statement .md5 := by rfl
theorem derive : Statement .derive := by rfl
theorem pad : Statement .pad := by rfl
theorem unpad : Statement .unpad := by rfl
theorem enc : Statement .enc := by rfl
theorem dec : Statement .dec := by rfl
theorem fenc : Statement .fenc := by rfl
theorem fdec : Statement .fdec := by rfl
theorem sent : Statement .sent := by rfl
theorem strip : Statement .strip := by rfl
theorem sealFrame : Statement .sealFrame := by rfl
theorem openFrame : Statement .openFrame := by rfl

end Sys2Proof.Laws.EncodedWord
end

