-- ==== Sys2Proof/Laws/Step.lean ====
section
/-! SUPPORT. What one step can do, said once: the turn it takes, and what that turn does. -/

namespace Sys2Proof.Machine

/-- A step takes the first turn of the agenda. -/
theorem step_of_agenda (s : State) (t : Turn) (ts : List Turn) (h : s.agenda = t :: ts) :
    step s = takeTurn t (s.setAgenda ts) := by simp [step, nextTurn, h]

/-- With no agenda a pending command is performed. -/
theorem step_of_pending (s : State) (h : s.agenda = []) (hb : s.busy = true) :
    step s = takeTurn .engine s := by simp [step, nextTurn, defaultTurn, h, hb]

/-- With no agenda and no pending command a runnable host program goes on. -/
theorem step_of_program (s : State) (h : s.agenda = []) (hb : s.busy = false)
    (hp : s.host.runnable = true) : step s = takeTurn .line s := by
  simp [step, nextTurn, defaultTurn, h, hb, hp]

/-- Otherwise the machine is idle. -/
theorem step_of_idle (s : State) (h : s.agenda = []) (hb : s.busy = false)
    (hp : s.host.runnable = false) : step s = .next s := by
  simp [step, nextTurn, defaultTurn, h, hb, hp]

/-- All that a step can be: a turn taken from the agenda, the default turn, or idling. -/
theorem step_cases (s : State) :
    (∃ t ts, s.agenda = t :: ts ∧ step s = takeTurn t (s.setAgenda ts)) ∨
      (s.agenda = [] ∧ s.busy = true ∧ step s = takeTurn .engine s) ∨
      (s.agenda = [] ∧ s.busy = false ∧ s.host.runnable = true ∧ step s = takeTurn .line s) ∨
      (s.agenda = [] ∧ s.busy = false ∧ s.host.runnable = false ∧ step s = .next s) := by
  cases ha : s.agenda with
  | cons t ts => exact .inl ⟨t, ts, rfl, step_of_agenda s t ts ha⟩
  | nil =>
    cases hb : s.busy with
    | true => exact .inr (.inl ⟨rfl, rfl, step_of_pending s ha hb⟩)
    | false =>
      cases hp : s.host.runnable with
      | true => exact .inr (.inr (.inl ⟨rfl, rfl, rfl, step_of_program s ha hb hp⟩))
      | false => exact .inr (.inr (.inr ⟨rfl, rfl, rfl, step_of_idle s ha hb hp⟩))

/-- All that the engine's turn can be (R45, R92): nothing when idle, the decoded command, or the
completion of an illegal word. -/
theorem engineTurn_cases (s : State) :
    (s.busy = false ∧ engineTurn s = .next s) ∨
      (∃ i, s.busy = true ∧ decode s.cmd = .ok i ∧ engineTurn s = exec i s) ∨
      (∃ r, s.busy = true ∧ decode s.cmd = .error r ∧
        engineTurn s = .next (s.finishErr .illegalCmd (opcField s.cmd))) := by
  cases hb : s.busy with
  | false => exact .inl ⟨rfl, by simp [engineTurn, hb]⟩
  | true =>
    cases hd : decode s.cmd with
    | ok i => exact .inr (.inl ⟨i, rfl, rfl, by simp [engineTurn, engineStep, State.fetchWord, hb, hd]⟩)
    | error r =>
      exact .inr (.inr ⟨r, rfl, rfl, by
        simp [engineTurn, engineStep, State.fetchWord, execIllegal, hb, hd]⟩)

/-- A line of the host program is one access of the port and a change of the program's own place, or a
change of the program's place alone (R95). -/
theorem hostLine_cases (l : Line) (s : State) :
    (∃ a h, hostLine l s = (hostAccess a s).setHost h) ∨ ∃ h, hostLine l s = s.setHost h := by
  cases l with
  | wr w off v => exact .inl ⟨_, _, rfl⟩
  | rd w off n => exact .inl ⟨_, _, rfl⟩
  | label n => exact .inr ⟨_, rfl⟩
  | bnz n m t => exact .inr ⟨_, rfl⟩
  | bz n m t => exact .inr ⟨_, rfl⟩

/-- All that the host program's turn can be. -/
theorem lineTurn_cases (s : State) :
    lineTurn s = s ∨ (∃ a h, lineTurn s = (hostAccess a s).setHost h) ∨ ∃ h, lineTurn s = s.setHost h := by
  unfold lineTurn
  split
  · exact .inr (hostLine_cases _ s)
  · exact .inl rfl

end Sys2Proof.Machine
end

