-- ==== Sys2Proof/Tests/Slice0.lean ====
section
/-! SUPPORT. Tests: the checks of WellFormed refuse ill-formed terms, every command's word decodes to it,
vectors of spec/95_test_vectors.md, and for every statement with hypotheses a witness that meets them. The
expected values are the spec's; where a frame is not the spec's it was computed outside the model. -/

namespace Sys2Proof.Tests

-- One theorem after another: the kernel's evaluations are not run side by side.
set_option Elab.async false

open Sys2Proof Sys2Proof.Machine

section Helpers

/-- `n` bytes, the number `v` written out with its most significant byte first. -/
def bytes (n v : Nat) : List Byte := (List.range n).map fun i => BitVec.ofNat 8 (v / 256 ^ (n - 1 - i))

/-- 16 bytes. -/
def block (v : Nat) : Block := Block.ofList (bytes 16 v)

/-- The smallest machine after reset: 64 bytes of DBUF. -/
def small : State := State.resetWith ⟨0⟩

/-- `K1` of spec/95_test_vectors.md, KEY and IV as V-DRV-1 gives them. -/
def keyed (s : State) : State :=
  { s with
    token := block 0x0123456789abcdef0123456789abcdef
    key := block 0x4662bdea8654776d486072ff7074945e
    iv := block 0xf9f4439c9506696e49b54f75308ed4f6
    keyv := true }

/-- The body `bs` placed in DBUF. -/
def withBody (s : State) (bs : List Byte) : State := (s.poke 32 bs).setBlen bs.length

/-- The frame `bs` placed in DBUF. -/
def withFrame (s : State) (bs : List Byte) : State := (s.poke 0 bs).setFlen bs.length

/-- DEVID = 1, STAMP = 2. -/
def addressed (s : State) : State := { s with devid := 1, stamp := 2 }

/-- The next state of an outcome. -/
def nextOf (o : Host.Outcome State Fault Refusal) (s : State) : State :=
  match o with
  | .next t => t
  | .fault _ => s
  | .refused _ => s

/-- An outcome is a next state. -/
def isNext (o : Host.Outcome State Fault Refusal) : Bool :=
  match o with
  | .next _ => true
  | .fault _ => false
  | .refused _ => false

/-- The command word `w` accepted and performed: one step. -/
def issue (w : Nat) (s : State) : State := nextOf (step (s.withFetchWord 32 w)) s

/-- STATUS and ERRINFO as they read. -/
def result (s : State) : Word × Word := (s.statusWord, s.errinfoWord)

/-- One host access. -/
def doWrite (w : Width) (off : Nat) (v : Word) (s : State) : State := applyAccess (.write w off v) s

/-- The body ends with DONE. -/
def completesIn (i : Instr) (s : State) : Bool :=
  isNext (exec i (s.accept (encode i))) &&
    ((nextOf (exec i (s.accept (encode i))) s).done && !(nextOf (exec i (s.accept (encode i))) s).err)

/-- `completesIn` is `Completes` for some next state. -/
theorem completes_of (i : Instr) (s : State) (h : completesIn i s = true) : ∃ t, Completes i s t := by
  unfold completesIn at h
  cases ho : exec i (s.accept (encode i)) with
  | next t => exact ⟨t, ho, by simpa [ho, isNext, nextOf] using h⟩
  | fault f => simp [ho, isNext] at h
  | refused r => simp [ho, isNext] at h

end Helpers

section WellFormed

/-- RSV of 0x00000140 is not 0 (R98). -/
theorem test_rsvZero_refuses : rsvZero 0x00000140 = false ∧ rsvZero 0x80000000 = false := by decide

/-- Each end of each unassigned range of R92. -/
theorem test_opcAssigned_refuses :
    [0x02, 0x0F, 0x15, 0x1F, 0x22, 0x2F, 0x32, 0x3F, 0x42, 0xFF].all
      (fun n => !opcAssigned (BitVec.ofNat 32 n)) = true := by decide

theorem test_commandWordWf_refuses : commandWordWf 0x00000140 = false ∧ commandWordWf 0x00000015 = false := by
  decide

theorem test_labelsDistinct_refuses : labelsDistinct [.label "w", .label "w"] = false := by decide

theorem test_branchesResolve_refuses :
    branchesResolve [.rd .w32 0x00C "s", .bnz "s" 1 "nowhere"] = false := by decide

theorem test_branchNamesRead_refuses : branchNamesRead [.label "w", .bnz "s" 1 "w"] = false := by decide

theorem test_hostProgramWf_accepts : hostProgramWf (runLines .derive "w1" "s") = true := by decide

end WellFormed

section Decoding

/-- Words from R90 and R91, `RSV` in bits 31..8 and `OPC` in bits 7..0. -/
theorem test_decode_nop : decode 0b000000000000000000000000_00000000 = .ok .nop := by decide
theorem test_decode_md5 : decode 0b000000000000000000000000_00000001 = .ok .md5 := by decide
theorem test_decode_derive : decode 0b000000000000000000000000_00010000 = .ok .derive := by decide
theorem test_decode_pad : decode 0b000000000000000000000000_00010001 = .ok .pad := by decide
theorem test_decode_unpad : decode 0b000000000000000000000000_00010010 = .ok .unpad := by decide
theorem test_decode_enc : decode 0b000000000000000000000000_00010011 = .ok .enc := by decide
theorem test_decode_dec : decode 0b000000000000000000000000_00010100 = .ok .dec := by decide
theorem test_decode_fenc : decode 0b000000000000000000000000_00100000 = .ok .fenc := by decide
theorem test_decode_fdec : decode 0b000000000000000000000000_00100001 = .ok .fdec := by decide
theorem test_decode_sent : decode 0b000000000000000000000000_00110000 = .ok .sent := by decide
theorem test_decode_strip : decode 0b000000000000000000000000_00110001 = .ok .strip := by decide
theorem test_decode_seal : decode 0b000000000000000000000000_01000000 = .ok .sealFrame := by decide
theorem test_decode_open : decode 0b000000000000000000000000_01000001 = .ok .openFrame := by decide

theorem test_decode_rejects : decode 0x00000140 = .error .reservedBits ∧
    decode 0x00000015 = .error .unassignedOpcode ∧ decode 0x80000000 = .error .reservedBits := by decide

theorem test_decodeTableWord : decodeTableWord 32 0x41 = some .openFrame ∧ decodeTableWord 8 0x13 = some .enc ∧
    decodeTableWord 32 0x141 = none := by decide

end Decoding

section Commands

/-- V-NOP-1, V-NOP-2. -/
theorem test_nop : result (issue 0x00 State.reset) = (0x02, 0) ∧
    result (issue 0x00 (State.reset.setIe true)) = (0x22, 0) := by decide +kernel

/-- V-ILL-1 to V-ILL-6. -/
theorem test_illegal : [0x140, 0x15, 0x02, 0xFF, 0x80000000, 0x110].map (fun w => result (issue w State.reset)) =
    [(0x04, 0x4001), (0x04, 0x1501), (0x04, 0x0201), (0x04, 0xFF01), (0x04, 0x0001), (0x04, 0x1001)] := by
  decide +kernel

/-- V-MD5-3, "abc". -/
theorem test_md5_abc :
    (issue 0x01 { State.reset.poke 0 [0x61, 0x62, 0x63] with hlen := 3 }).digest =
      block 0x900150983cd24fb0d6963f7d28e17f72 := by decide +kernel

/-- V-MD5-11, V-MD5-14: an empty region at the end, a sum that does not wrap. -/
theorem test_md5_range :
    result (issue 0x01 { State.reset with hoff := 65536 }) = (0x02, 0) ∧
    result (issue 0x01 { State.reset with hoff := 0xFFFFFFFF, hlen := 2 }) = (0x04, 0x0103) := by decide +kernel

/-- V-DRV-1. -/
theorem test_derive :
    (issue 0x10 { State.reset with token := block 0x0123456789abcdef0123456789abcdef }).key =
      block 0x4662bdea8654776d486072ff7074945e ∧
    (issue 0x10 { State.reset with token := block 0x0123456789abcdef0123456789abcdef }).iv =
      block 0xf9f4439c9506696e49b54f75308ed4f6 := by decide +kernel

/-- V-PAD-2. -/
theorem test_pad :
    (issue 0x11 (withBody State.reset [0x61, 0x62, 0x63])).body = bytes 16 0x6162630d0d0d0d0d0d0d0d0d0d0d0d0d := by
  decide +kernel

/-- V-PAD-1, V-PAD-6 to V-PAD-8: the edges of BLEN. -/
theorem test_pad_edges :
    [0, 65503, 65504, 65505].map (fun n => result (issue 0x11 (State.reset.setBlen n))) =
      [(0x04, 0x1104), (0x02, 0), (0x04, 0x1105), (0x04, 0x1103)] := by decide +kernel

/-- V-UNP-1, V-UNP-7 (a claimed length of 32). -/
theorem test_unpad :
    (issue 0x12 (withBody State.reset (bytes 16 0x6162630d0d0d0d0d0d0d0d0d0d0d0d0d))).blen = 3 ∧
    (issue 0x12 (withBody State.reset (List.replicate 32 0x20))).blen = 0 := by decide +kernel

/-- V-UNP-2 to V-UNP-6, V-UNP-11. -/
theorem test_unpad_errors :
    [[], bytes 16 0, bytes 16 0x11, bytes 16 0x04040504, bytes 17 1, [0x00, 0x03]].map
      (fun b => (issue 0x12 (withBody State.reset b)).errinfoWord) = List.replicate 6 0x1207 := by decide +kernel

/-- V-RT-1, its ENC. -/
theorem test_enc :
    (issue 0x13 (withBody (keyed State.reset) (bytes 16 0x780f0f0f0f0f0f0f0f0f0f0f0f0f0f0f))).body =
      bytes 16 0xdc7366c3a7c3f9aa25244464fcb66619 := by decide +kernel

/-- V-ENC-1, V-ENC-2, V-ENC-3, V-ENC-6. -/
theorem test_enc_edges :
    (issue 0x13 (withBody State.reset (bytes 16 0))).errinfoWord = 0x1302 ∧
    [15, 0, 65505].map (fun n => result (issue 0x13 ((keyed State.reset).setBlen n))) =
      [(0x0C, 0x1306), (0x0A, 0), (0x0C, 0x1303)] := by decide +kernel

/-- V-RT-1, its DEC. -/
theorem test_dec :
    (issue 0x14 (withBody (keyed State.reset) (bytes 16 0xdc7366c3a7c3f9aa25244464fcb66619))).body =
      bytes 16 0x780f0f0f0f0f0f0f0f0f0f0f0f0f0f0f := by decide +kernel

/-- V-DEC-4, V-DEC-5. -/
theorem test_dec_errors :
    (issue 0x14 (withBody (keyed State.reset) (bytes 17 0))).errinfoWord = 0x1406 ∧
    (issue 0x14 (withBody State.reset (bytes 16 0))).errinfoWord = 0x1402 := by decide +kernel

/-- The frame of V-FEN-6: 49 bytes. -/
def frame49 : List Byte :=
  bytes 32 0x21310031000000000000000100000002634ba69ab8290a6013da726fb32ee226 ++
    bytes 17 0x000102030405060708090a0b0c0d0e0f10

/-- V-FEN-6. -/
theorem test_fenc :
    (issue 0x20 (withBody (addressed (keyed State.reset)) (bytes 17 0x000102030405060708090a0b0c0d0e0f10))).frame =
      frame49 := by decide +kernel

/-- V-FEN-3, V-FEN-4, V-FEN-5. -/
theorem test_fenc_errors :
    [65504, 65505].map (fun n => (issue 0x20 ((keyed State.reset).setBlen n)).errinfoWord) = [0x200B, 0x2003] ∧
    (issue 0x20 (withBody State.reset [0x78])).errinfoWord = 0x2002 := by decide +kernel

/-- The frame of V-FEN-6 verified: BLEN 17, DIGEST its slot. -/
theorem test_fdec :
    (issue 0x21 (withFrame (keyed State.reset) frame49)).blen = 17 ∧
    (issue 0x21 (withFrame (keyed State.reset) frame49)).digest = block 0x634ba69ab8290a6013da726fb32ee226 := by
  decide +kernel

/-- V-FDC-4, V-FDC-7, V-FDC-11, and V-FDC-3 on the frame of V-FEN-6. -/
theorem test_fdec_errors :
    [32, 65537].map (fun n => (issue 0x21 ((keyed State.reset).setFlen n)).errinfoWord) = [0x2108, 0x2103] ∧
    (issue 0x21 (State.reset.setFlen 10)).errinfoWord = 0x2102 ∧
    (issue 0x21 ((withFrame (keyed State.reset) frame49).poke 16 [0x94])).errinfoWord = 0x2109 := by decide +kernel

/-- V-SEN-1 to V-SEN-4. -/
theorem test_sent :
    [[0x61, 0x62], [0x61, 0x00], [], [0x00, 0x61]].map (fun b => (issue 0x30 (withBody State.reset b)).body) =
      [[0x61, 0x62, 0x00], [0x61, 0x00], [0x00], [0x00, 0x61, 0x00]] := by decide +kernel

/-- V-SEN-5, V-SEN-6. -/
theorem test_sent_full :
    result (issue 0x30 ((State.reset.poke 65535 [0x01]).setBlen 65504)) = (0x04, 0x3005) ∧
    result (issue 0x30 ((State.reset.poke 65535 [0x00]).setBlen 65504)) = (0x02, 0) := by decide +kernel

/-- V-STR-1 to V-STR-5. -/
theorem test_strip :
    [[0x61, 0x62, 0x00], [0x61, 0x62], [0x61, 0x00, 0x00], [], [0x00]].map
      (fun b => (issue 0x31 (withBody State.reset b)).blen) = [2, 2, 2, 0, 0] := by decide +kernel

/-- The 48-byte frame of V-SEL-5. -/
def frame48 : List Byte :=
  bytes 48 0x21310030000000000000000100000002179ed277ef1521c9855ce6be3aceb217130784b9a5fcf821cf77f657287bf19f

/-- V-SEL-5. -/
theorem test_seal : (issue 0x40 (addressed (keyed State.reset))).frame = frame48 := by decide +kernel

/-- V-SEL-1, V-SEL-3: a failing part reports its own opcode, and the part before it keeps its effect. -/
theorem test_seal_errors :
    (issue 0x40 State.reset).errinfoWord = 0x4002 ∧
    (issue 0x40 (((keyed State.reset).poke 65534 [0x01]).setBlen 65503)).errinfoWord = 0x1105 ∧
    (issue 0x40 (((keyed State.reset).poke 65534 [0x01]).setBlen 65503)).blen = 65504 := by decide +kernel

/-- V-OPN-6, its OPEN: an empty payload, no error. -/
theorem test_open :
    result (issue 0x41 (withFrame (keyed State.reset) frame48)) = (0x0A, 0) ∧
    (issue 0x41 (withFrame (keyed State.reset) frame48)).blen = 0 := by decide +kernel

/-- V-OPN-4, V-OPN-8: ALIGN with FDEC's BLEN kept, NO_KEY. -/
theorem test_open_errors :
    (issue 0x41 (withFrame (keyed State.reset) frame49)).errinfoWord = 0x1406 ∧
    (issue 0x41 (withFrame (keyed State.reset) frame49)).blen = 17 ∧
    (issue 0x41 (withFrame State.reset frame48)).errinfoWord = 0x4102 := by decide +kernel

/-- V-AES-1 (FIPS-197 Appendix C.1). -/
theorem test_aes_enc : aesEnc (block 0x000102030405060708090a0b0c0d0e0f) (block 0x00112233445566778899aabbccddeeff) =
    block 0x69c4e0d86a7b0430d8cdb78070b4c55a := by decide +kernel

end Commands

section Port

/-- V-BUS-1, V-BUS-2. -/
theorem test_reset_reads :
    [0x000, 0x00C, 0x010, 0x004, 0x008].map (fun o => answerOf (.read .w32 o) State.reset) =
      [.data 0x4D49494F, .data 0, .data 0, .data 0, .data 0] := by decide +kernel

/-- V-BUS-3. -/
theorem test_token_write :
    (doWrite .w32 0x040 0x67452301 State.reset).token.toList.take 5 = [0x01, 0x23, 0x45, 0x67, 0x00] ∧
    answerOf (.read .w32 0x040) (doWrite .w32 0x040 0x67452301 State.reset) = .data 0 := by decide +kernel

/-- V-BUS-4, V-BUS-5. -/
theorem test_key_read :
    (doWrite .w8 0x04F 0xEF (keyed State.reset)).keyv = false ∧
    (doWrite .w8 0x04F 0xEF (keyed State.reset)).token = (keyed State.reset).token ∧
    answerOf (.read .w32 0x050) (keyed State.reset) = .data 0xEABD6246 := by decide +kernel

/-- V-BUS-6. -/
theorem test_bus_errors :
    [Access.write .w8 0x00C 0x02, .read .w16 0x014, .read .w32 0x10002, .read .w16 0x10001].map
      (fun a => answerOf a State.reset) = List.replicate 4 .busError := by decide +kernel

/-- V-BUS-7: the buffer of 4096 bytes. -/
theorem test_buffer_end :
    answerOf (.write .w8 0x10FFF 0) (State.resetWith ⟨6⟩) = .written ∧
    answerOf (.read .w8 0x11000) (State.resetWith ⟨6⟩) = .busError := by decide +kernel

/-- V-BUS-8. -/
theorem test_busy :
    [Access.read .w32 0x00C, .read .w32 0x014, .read .w8 0x10000].map
      (fun a => answerOf a (doWrite .w32 0x008 0x10 State.reset)) = [.data 1, .busError, .busError] ∧
    answerOf (.read .w32 0x00C) (doWrite .w32 0x008 0 (doWrite .w32 0x008 0x10 State.reset)) = .data 0x11 := by
  decide +kernel

/-- V-BUS-9, V-BUS-10. -/
theorem test_reserved_and_w1c :
    answerOf (.read .w32 0x02C) (doWrite .w32 0x02C 0xFFFFFFFF State.reset) = .data 0 ∧
    answerOf (.read .w32 0x0FFFC) State.reset = .data 0 ∧
    (doWrite .w32 0x00C 0x2 (issue 0x13 State.reset)).statusWord = 0x04 := by decide +kernel

/-- V-BUS-11. -/
theorem test_ctrl_reset :
    answerOf (.read .w32 0x004) (doWrite .w32 0x004 0x3 ((keyed State.reset).setIe true)) = .data 0 ∧
    (doWrite .w32 0x004 0x3 ((keyed State.reset).setIe true)).keyv = false := by decide +kernel

/-- V-BUS-12: the lanes of the frame's first word. -/
theorem test_lanes :
    [Access.read .w32 0x10000, .read .w16 0x10002, .read .w8 0x10003].map
      (fun a => answerOf a (withFrame State.reset [0x21, 0x31, 0x00, 0x50])) =
      [.data 0x50003121, .data 0x5000, .data 0x50] := by decide +kernel

/-- P6b: the second CMD write is dropped while the first command is pending; then the poll. -/
theorem test_program_line :
    (nextOf (step { (State.reset.loadProgram [cmdLine .derive, cmdLine .nop]) with agenda := [.line] })
      State.reset).busy = true ∧
    (nextOf (step { (State.reset.loadProgram [cmdLine .nop]).accept 0x10 with agenda := [.line] })
      State.reset).ovr = true := by decide +kernel

/-- R96: `wrbytes` at a 4-aligned and at another offset; its offsets go on past the window (R6), where the
port refuses them (R65). -/
theorem test_wrbytes :
    wrbytes 0x10020 [0x7B, 0x22, 0x69, 0x64, 0x5D] = [.wr .w32 0x10020 0x6469227B, .wr .w8 0x10024 0x5D] ∧
    wrbytes 0x1FFFF [0x01, 0x02] = [.wr .w8 0x1FFFF 0x01, .wr .w8 0x20000 0x02] ∧
    wrbytes 0x1FFFC (bytes 8 2) = [.wr .w32 0x1FFFC 0, .wr .w32 0x20000 0x02000000] ∧
    [0x20000, 0x20008].map (fun o => answerOf (.write .w32 o 0x10) State.reset) = [.busError, .busError] := by
  decide +kernel

/-- R95: a poll that reads BUSY = 1 goes back to its label. -/
theorem test_branch_taken :
    (nextOf (step { State.reset with
      host := ⟨waitLines "w" "s", 2, [("s", 0x1)], false⟩ }) State.reset).host.pos = 0 ∧
    (nextOf (step { State.reset with
      host := ⟨waitLines "w" "s", 2, [("s", 0x2), ("s", 0x1)], false⟩ }) State.reset).host.pos = 3 := by
  decide +kernel

/-- P4: `wr8` past the buffer makes a faulted run (R66). -/
theorem test_program_fault :
    (nextOf (step ((State.resetWith ⟨0⟩).loadProgram [.wr .w8 0x10040 1])) State.reset).host.faulted = true := by
  decide +kernel

end Port

section Witnesses

/-- A well-formed frame of 33 bytes for the token of `keyed`, the least that FDEC takes (its digest computed
outside the model). -/
def frame33 : List Byte := bytes 33 0x2131002100000000000000010000000250f87ee6e65a38b86e93fe1e70535b8b78

/-- A well-formed frame of 64 bytes, as long as the smallest buffer. -/
def frame64 : List Byte :=
  bytes 64 0x21310040000000000000000100000002c0216a14766b082df5ef8d95649b7e0b000102030405060708090a0b0c0d0e0f101112131415161718191a1b1c1d1e1f

/-- The frame of V-OPN-5: its body decrypts to bad padding. -/
def frameBadPad : List Byte :=
  bytes 48 0x21310030000000000000000100000002452a5b7b8d5c1fd3d7f0f150f27289ac00000000000000000000000000000000

/-- A command word pending in a keyed machine. -/
def pending (w : Word) : State := (keyed State.reset).accept w

theorem wit_illegal_words_complete_in_error :
    [0x02, 0x0F, 0x15, 0x1F, 0x22, 0x2F, 0x32, 0x3F, 0x42, 0xFF, 0x100, 0x80000000].all
      (fun n => !commandWordWf (BitVec.ofNat 32 n)) = true ∧
    commandWordWf 0x00 = true ∧ commandWordWf 0x14 = true ∧ State.reset.busy = false ∧
    (pending 0x140).busy = true ∧ (pending 0x140).cmd = 0x140 := by decide +kernel

theorem wit_step_runs_decoded_command :
    (State.reset.withFetchWord 32 0x40).agenda = [.engine] ∧ (State.reset.withFetchWord 32 0x40).busy = true ∧
    decode (State.reset.withFetchWord 32 0x40).cmd = .ok .sealFrame ∧ (pending 0x01).agenda = [] ∧
    (pending 0x01).busy = true ∧ decode (pending 0x01).cmd = .ok .md5 ∧
    decode (BitVec.ofNat 32 0x41) = .ok .openFrame := by decide +kernel

theorem wit_step_serves_the_port_in_order :
    (State.reset.setAgenda [.access (.read .w32 0x000)]).agenda = [.access (.read .w32 0x000)] ∧
    (State.reset.setAgenda [.reset, .line]).agenda = [.reset, .line] ∧
    (State.reset.setAgenda [.engine]).busy = false ∧ State.reset.agenda = [] ∧ State.reset.busy = false ∧
    State.reset.host.runnable = false ∧ (State.reset.setAgenda [.line]).agenda = [.line] ∧
    (State.reset.loadProgram [cmdLine .nop]).agenda = [] ∧
    (State.reset.loadProgram [cmdLine .nop]).busy = false ∧
    (State.reset.loadProgram [cmdLine .nop]).host.runnable = true := by decide +kernel

theorem wit_command_write_accepts_or_drops :
    State.reset.busy = false ∧ (pending 0x10).busy = true ∧ commandWordWf 0x140 = false := by decide +kernel

theorem wit_completion_sets_done_or_err :
    isNext (exec .nop (pending 0x00)) = true ∧ (nextOf (exec .nop (pending 0x00)) State.reset).done = true ∧
    isNext (exec .pad (pending 0x11)) = true ∧ (nextOf (exec .pad (pending 0x11)) State.reset).err = true ∧
    isNext (exec .derive (pending 0x10)) = true := by decide +kernel

theorem wit_failed_primitive_writes_nothing :
    [Instr.md5, .pad, .unpad, .enc, .dec, .fenc, .fdec, .sent, .strip].all (fun i =>
      let s := { State.reset with blen := 65505, hlen := 65537 }
      !s.err && isNext (exec i s) && (nextOf (exec i s) s).err) = true := by decide +kernel

/-- Every command answers a next state, so the frames speak of all of them. -/
theorem wit_commands_write_their_registers_only :
    [Instr.nop, .md5, .derive, .pad, .unpad, .enc, .dec, .fenc, .fdec, .sent, .strip, .openFrame].all
      (fun i => isNext (exec i (withFrame (keyed small) frame33))) = true ∧
    isNext (exec .sealFrame small) = true := by decide +kernel

/-- The two storing shapes at the end of the smallest buffer. -/
theorem wit_commands_write_their_bytes_only :
    isNext (exec .pad (small.setBlen 31)) = true ∧ (nextOf (exec .pad (small.setBlen 31)) small).blen = 32 ∧
    isNext (exec .fenc (keyed small)) = true ∧ (nextOf (exec .fenc (keyed small)) small).flen = 32 := by
  decide +kernel

theorem wit_md5_hashes_the_region :
    (let s := { State.reset with hoff := 65536 }; s.hoff.toNat + s.hlen.toNat ≤ s.dbufBytes) ∧
    (let s := { State.reset with hoff := 65535, hlen := 2 }; s.dbufBytes < s.hoff.toNat + s.hlen.toNat) ∧
    (let s := { State.reset with hoff := 0xFFFFFFFF, hlen := 2 }; s.dbufBytes < s.hoff.toNat + s.hlen.toNat) := by
  decide +kernel

theorem wit_cbc_dec_inverts_cbc_enc : (bytes 32 1).length % 16 = 0 ∧ ([] : List Byte).length % 16 = 0 := by
  decide

/-- The smallest and the largest body that PAD takes. -/
theorem wit_pad_appends_the_padding : [1, 65503].all (fun n =>
    let s := State.reset.setBlen n
    decide (s.blen.toNat ≠ 0 ∧ 32 + s.blen.toNat + (16 - s.blen.toNat % 16) ≤ s.dbufBytes)) = true := by
  decide +kernel

/-- Each error of PAD at its boundary: 65505, 0, 65504. -/
theorem wit_pad_errors :
    (let s := State.reset.setBlen 65505; s.dbufBytes - 32 < s.blen.toNat) ∧
    (let s := State.reset; ¬ s.dbufBytes - 32 < s.blen.toNat ∧ s.blen.toNat = 0) ∧
    (let s := State.reset.setBlen 65504
     ¬ s.dbufBytes - 32 < s.blen.toNat ∧ s.blen.toNat ≠ 0 ∧
       s.dbufBytes < 32 + s.blen.toNat + (16 - s.blen.toNat % 16)) := by decide +kernel

/-- Good padding of one byte, and of the whole of the smallest buffer's body (a claim above 16). -/
theorem wit_unpad_removes_the_padding :
    [bytes 16 1, List.replicate 32 0x20].all (fun b =>
      let s := withBody small b
      decide (s.blen.toNat ≤ s.dbufBytes - 32 ∧ GoodPadding s.body)) = true := by decide +kernel

theorem wit_unpad_errors :
    (let s := small.setBlen 33; s.dbufBytes - 32 < s.blen.toNat) ∧
    (let s := small; ¬ s.dbufBytes - 32 < s.blen.toNat ∧ s.blen.toNat = 0) ∧
    (let s := withBody small (bytes 32 0)
     ¬ s.dbufBytes - 32 < s.blen.toNat ∧ s.blen.toNat ≠ 0 ∧ ¬ GoodPadding s.body) := by decide +kernel

/-- ENC and DEC run on no block at all and on the whole buffer. -/
theorem wit_enc_dec_in_place : [0, 16, 65504].all (fun n =>
    let s := (keyed State.reset).setBlen n
    s.keyv && decide (s.blen.toNat ≤ s.dbufBytes - 32 ∧ s.blen.toNat % 16 = 0)) = true := by decide +kernel

theorem wit_enc_dec_errors :
    State.reset.keyv = false ∧
    (let s := (keyed State.reset).setBlen 65505; s.keyv = true ∧ s.dbufBytes - 32 < s.blen.toNat) ∧
    (let s := (keyed State.reset).setBlen 65503
     s.keyv = true ∧ ¬ s.dbufBytes - 32 < s.blen.toNat ∧ s.blen.toNat % 16 ≠ 0) := by decide +kernel

theorem wit_pad_enc_dec_unpad_round_trip : [1, 65503].all (fun n =>
    let s := (keyed State.reset).setBlen n
    s.keyv && decide (s.blen.toNat ≠ 0 ∧ 32 + s.blen.toNat + 16 - s.blen.toNat % 16 ≤ s.dbufBytes)) = true := by
  decide +kernel

/-- The empty body and the longest a frame can carry. -/
theorem wit_fenc_builds_the_frame : [0, 65503].all (fun n =>
    let s := (keyed State.reset).setBlen n
    s.keyv && decide (s.blen.toNat ≤ s.dbufBytes - 32 ∧ 32 + s.blen.toNat ≤ 65535)) = true := by decide +kernel

theorem wit_fenc_errors :
    State.reset.keyv = false ∧
    (let s := (keyed State.reset).setBlen 65505; s.keyv = true ∧ s.dbufBytes - 32 < s.blen.toNat) ∧
    (let s := (keyed State.reset).setBlen 65504
     s.keyv = true ∧ ¬ s.dbufBytes - 32 < s.blen.toNat ∧ 65535 < 32 + s.blen.toNat) := by decide +kernel

/-- The shortest frame, the frame of V-FEN-6, and one that fills the smallest buffer. -/
theorem wit_fdec_exposes_the_body : [frame33, frame49, frame64].all (fun f =>
    let s := withFrame (keyed small) f
    s.keyv && decide (33 ≤ s.flen.toNat ∧ s.flen.toNat ≤ s.dbufBytes ∧ WellFormedFrame s.frame s.token)) = true := by
  decide +kernel

theorem wit_fdec_errors :
    small.keyv = false ∧
    (let s := (keyed small).setFlen 65; s.keyv = true ∧ s.dbufBytes < s.flen.toNat) ∧
    (let s := (keyed small).setFlen 32; ¬ s.dbufBytes < s.flen.toNat ∧ s.flen.toNat < 33) ∧
    (let s := (withFrame (keyed small) frame33).poke 16 [0x94]
     ¬ s.dbufBytes < s.flen.toNat ∧ ¬ s.flen.toNat < 33 ∧ ¬ WellFormedFrame s.frame s.token) := by decide +kernel

theorem wit_frame_round_trip_fenc :
    (∃ t, Completes .fenc (withBody (keyed small) [0x78]) t) ∧ 1 ≤ (withBody (keyed small) [0x78]).blen.toNat :=
  ⟨completes_of _ _ (by decide +kernel), by decide +kernel⟩

theorem wit_frame_round_trip_six : [1, 65487].all (fun n =>
    let s := (keyed State.reset).setBlen n
    s.keyv && decide (s.blen.toNat ≠ 0 ∧ 32 + s.blen.toNat + (16 - s.blen.toNat % 16) ≤ s.dbufBytes ∧
      32 + s.blen.toNat + (16 - s.blen.toNat % 16) ≤ 65535)) = true := by decide +kernel

/-- A changed byte at each edge of each clause: 0, 15, 16, 31, 32 of the 33-byte frame. -/
theorem wit_tampered_frame_detection : [0, 15, 16, 31, 32].all (fun i =>
    let s := withFrame (keyed small) frame33
    s.keyv && !s.err && decide (33 ≤ s.flen.toNat ∧ s.flen.toNat ≤ s.dbufBytes ∧
      WellFormedFrame s.frame s.token ∧ i < s.flen.toNat ∧ (0xEE : Byte) ≠ s.byte i)) = true := by decide +kernel

/-- SENT: no body, a body that leaves room for one byte, and a full body with its sentinel. -/
theorem wit_sent_appends_the_sentinel :
    (let s := small; s.blen.toNat ≤ s.dbufBytes - 32 ∧ s.blen.toNat = 0 ∧ 32 + s.blen.toNat + 1 ≤ s.dbufBytes) ∧
    (let s := withBody small (bytes 31 1)
     s.blen.toNat ≤ s.dbufBytes - 32 ∧ s.byte (32 + s.blen.toNat - 1) ≠ 0x00 ∧
       32 + s.blen.toNat + 1 ≤ s.dbufBytes) ∧
    (let s := withBody small (bytes 32 0)
     s.blen.toNat ≤ s.dbufBytes - 32 ∧ ¬(s.blen.toNat = 0 ∨ s.byte (32 + s.blen.toNat - 1) ≠ 0x00)) := by
  decide +kernel

theorem wit_strip_removes_the_sentinel : [0, 32].all (fun n =>
    let s := small.setBlen n
    decide (s.blen.toNat ≤ s.dbufBytes - 32)) = true := by decide +kernel

theorem wit_sent_strip_errors :
    (let s := small.setBlen 33; s.dbufBytes - 32 < s.blen.toNat) ∧
    (let s := withBody small (bytes 32 1)
     ¬ s.dbufBytes - 32 < s.blen.toNat ∧ s.byte (32 + s.blen.toNat - 1) ≠ 0x00 ∧
       s.dbufBytes < 32 + s.blen.toNat + 1) := by decide +kernel

/-- SEAL and the round trip: no payload, and one that just fits the smallest buffer. -/
theorem wit_seal_builds_the_frame : [[], bytes 30 0x61, [0x61, 0x62, 0x00]].all (fun b =>
    let s := withBody (keyed small) b
    s.keyv && decide (32 + (withPadding (withSentinel s.body)).length ≤ s.dbufBytes ∧
      32 + (withPadding (withSentinel s.body)).length ≤ 65535)) = true := by decide +kernel

/-- The two clauses of the round trip: an empty payload, one with another last byte, one that ends in
0x00. -/
theorem wit_seal_open_round_trip :
    (withBody (keyed small) []).blen.toNat = 0 ∧
    (withBody (keyed small) (bytes 30 0x61)).body.getLastD 0x00 ≠ 0x00 ∧
    (withBody (keyed small) [0x61, 0x62, 0x00]).blen.toNat ≠ 0 ∧
    (withBody (keyed small) [0x61, 0x62, 0x00]).body.getLastD 0x00 = 0x00 := by decide +kernel

/-- The first four errors of SEAL: no key, past the end, no room for the sentinel, none for the padding. -/
theorem wit_seal_errors :
    small.keyv = false ∧
    (let s := (keyed small).setBlen 33; s.keyv = true ∧ s.dbufBytes - 32 < s.blen.toNat) ∧
    (let s := withBody (keyed small) (bytes 32 1)
     ¬ s.dbufBytes - 32 < s.blen.toNat ∧ s.dbufBytes < 32 + (withSentinel s.body).length) ∧
    (let s := withBody (keyed small) (bytes 31 1)
     ¬ s.dbufBytes - 32 < s.blen.toNat ∧ ¬ s.dbufBytes < 32 + (withSentinel s.body).length ∧
       s.dbufBytes < 32 + (withPadding (withSentinel s.body)).length) := by decide +kernel

/-- The fifth: with BLEN = 65488 the padded payload has 65504 bytes whatever the body's last byte is. -/
theorem wit_seal_errors_length :
    let s := (keyed State.reset).setBlen 65488
    s.keyv = true ∧ ¬ s.dbufBytes - 32 < s.blen.toNat ∧ ¬ s.dbufBytes < 32 + (withSentinel s.body).length ∧
      ¬ s.dbufBytes < 32 + (withPadding (withSentinel s.body)).length ∧
      65535 < 32 + (withPadding (withSentinel s.body)).length := by
  intro s
  have hd : s.dbufBytes = 65536 := rfl
  have hn : s.blen.toNat = 65488 := rfl
  have hb : s.body.length = 65488 := s.peek_length 32 65488
  have hw : (withSentinel s.body).length = 65488 ∨ (withSentinel s.body).length = 65489 := by
    unfold withSentinel
    split
    · exact .inr (by rw [List.length_append, hb]; rfl)
    · exact .inl hb
  have hp : (withPadding (withSentinel s.body)).length = 65504 := by
    rw [withPadding, List.length_append, padBytes_length, padLength, blockBytes]
    omega
  exact ⟨rfl, by omega, by omega, by omega, by omega⟩

/-- OPEN of V-SEL-5's frame. -/
theorem wit_open_yields_the_payload :
    let s := withFrame (keyed small) frame48
    s.keyv = true ∧ 33 ≤ s.flen.toNat ∧ s.flen.toNat ≤ s.dbufBytes ∧ WellFormedFrame s.frame s.token ∧
      (s.flen.toNat - 32) % 16 = 0 ∧ GoodPadding (cbcDec s.key s.iv (s.peek 32 (s.flen.toNat - 32))) := by
  decide +kernel

/-- The first five errors of OPEN, the frames of 33 and 49 bytes giving ALIGN. -/
theorem wit_open_errors :
    small.keyv = false ∧
    (let s := (keyed small).setFlen 65; s.keyv = true ∧ s.dbufBytes < s.flen.toNat) ∧
    (let s := (keyed small).setFlen 32; ¬ s.dbufBytes < s.flen.toNat ∧ s.flen.toNat < 33) ∧
    (let s := (withFrame (keyed small) frame48).poke 31 [0x00]
     ¬ s.dbufBytes < s.flen.toNat ∧ ¬ s.flen.toNat < 33 ∧ ¬ WellFormedFrame s.frame s.token) ∧
    [frame33, frame49].all (fun f =>
      let s := withFrame (keyed small) f
      decide (33 ≤ s.flen.toNat ∧ s.flen.toNat ≤ s.dbufBytes ∧ WellFormedFrame s.frame s.token ∧
        (s.flen.toNat - 32) % 16 ≠ 0)) = true := by decide +kernel

/-- The sixth, V-OPN-5's frame: bad padding after decryption. -/
theorem wit_open_errors_padding :
    let s := withFrame (keyed small) frameBadPad
    s.keyv = true ∧ ¬ s.dbufBytes < s.flen.toNat ∧ ¬ s.flen.toNat < 33 ∧ WellFormedFrame s.frame s.token ∧
      ¬((s.flen.toNat - 32) % 16 ≠ 0) ∧
      ¬ GoodPadding (cbcDec s.key s.iv (s.peek 32 (s.flen.toNat - 32))) := by decide +kernel

theorem wit_composites_stop_at_the_failing_part : small.keyv = false ∧ (keyed small).keyv = true := by
  decide +kernel

/-- An odd address, a narrow register access, the byte after the buffer, data state while busy. -/
theorem wit_refused_access_has_no_effect :
    [(State.reset, Width.w16, 0x10001), (State.reset, .w8, 0x03C), (State.resetWith ⟨6⟩, .w8, 0x11000),
      (pending 0x01, .w32, 0x014)].all (fun c => decide (RefusedAccess c.1 c.2.1 c.2.2)) = true ∧
    [(State.resetWith ⟨6⟩, Width.w8, 0x10FFF), (State.reset, .w8, 0x040), (State.reset, .w32, 0x03C)].all
      (fun c => !decide (RefusedAccess c.1 c.2.1 c.2.2)) = true := by decide +kernel

theorem wit_busy_protects_data_state :
    (pending 0x01).busy = true ∧ [0x014, 0x02B, 0x040, 0x07F, 0x10000, 0x1FFFF].all (fun n =>
      (regionOf n).isData) = true ∧
    DataOffset 0x014 ∧ DataOffset 0x02B ∧ DataOffset 0x040 ∧ DataOffset 0x07F ∧ DataOffset 0x1FFFF ∧
    ¬ DataOffset 0x013 ∧ ¬ DataOffset 0x02C ∧ ¬ DataOffset 0x03F ∧ ¬ DataOffset 0x080 ∧ ¬ DataOffset 0xFFFF ∧
    (applyAccess (.write .w32 0x00C 6) (pending 0x01)).busy = true ∧ (2 : Word).getLsbD 1 = true := by
  decide +kernel

theorem wit_status_reads_and_clears : (1 : Word).getLsbD 1 = false ∧ (1 : Word).getLsbD 0 = true := by decide

theorem wit_interrupt_output :
    (6 : Word).getLsbD 1 = true ∧ (6 : Word).getLsbD 2 = true ∧ (6 : Word).getLsbD 0 = false ∧
    State.reset.busy = false ∧ (nextOf (exec .nop { pending 0x00 with ie := true }) State.reset).irq = true := by
  decide +kernel

/-- Each width at the last place it has in a byte region. -/
theorem wit_window_reads : State.reset.busy = false ∧
    [(Width.w8, 15), (.w16, 14), (.w32, 12)].all (fun p => decide (p.2 < 16 ∧ p.2 % widthBytes p.1 = 0)) =
      true := by decide +kernel

theorem wit_operand_registers_read_back :
    State.reset.busy = false ∧ isNext (exec .sent State.reset) = true := by decide +kernel

/-- The lanes at both ends of the buffer. -/
theorem wit_dbuf_byte_lanes : State.reset.busy = false ∧
    [0, 65535].all (fun i => decide (i + 1 ≤ State.reset.dbufBytes)) = true ∧
    [0, 65534].all (fun i => decide (i % 2 = 0 ∧ i + 2 ≤ State.reset.dbufBytes)) = true ∧
    [0, 65532].all (fun i => decide (i % 4 = 0 ∧ i + 4 ≤ State.reset.dbufBytes)) = true := by decide +kernel

theorem wit_reserved_offsets_are_raz_wi :
    ¬ RefusedAccess State.reset .w32 0x02C ∧ ¬ RefusedAccess State.reset .w32 0x03C ∧
    ¬ RefusedAccess (pending 0x01) .w8 0x080 ∧ ¬ RefusedAccess State.reset .w8 0xFFFF := by
  decide +kernel

theorem wit_read_only_registers_ignore_writes :
    [0x000, 0x003, 0x010, 0x013, 0x050, 0x07F].all (fun o : Nat =>
      decide (o < 0x004 ∨ (0x010 ≤ o ∧ o < 0x014) ∨ (0x050 ≤ o ∧ o < 0x080))) =
        true := by decide +kernel

/-- Each width at the first and the last place it has in the region. -/
theorem wit_token_write : State.reset.busy = false ∧
    [(Width.w8, 0), (.w8, 15), (.w16, 0), (.w16, 14), (.w32, 0), (.w32, 12)].all (fun p =>
      decide (p.2 < 16 ∧ p.2 % widthBytes p.1 = 0)) = true := by decide +kernel

theorem wit_token_change_needs_derive :
    [0x040, 0x04F].all (fun o : Nat => decide (0x040 ≤ o ∧ o < 0x050 ∧
      answerOf (.write .w8 o 1) (keyed State.reset) = .written)) = true ∧
    State.reset.keyv = false ∧ isNext (exec .enc State.reset) = true := by decide +kernel

theorem wit_reset_sources_and_effect : (2 : Word).getLsbD 1 = true ∧ (3 : Word).getLsbD 1 = true := by decide

/-- A program of one line stands at it. -/
theorem standsAt_single (l : Line) (h : l.labelName = none) :
    (small.loadProgram [l]).host.StandsAt 0 l :=
  ⟨Nat.zero_le 0, rfl, h, fun j _ hj => absurd hj (Nat.not_lt_zero j)⟩

/-- A program of a label and a line stands at the line. -/
theorem standsAt_labelled (n : String) (l : Line) (h : l.labelName = none) :
    (small.loadProgram [.label n, l]).host.StandsAt 1 l :=
  ⟨Nat.zero_le 1, rfl, h, fun j _ hj => ⟨n, by rw [Nat.lt_one_iff.mp hj]; rfl⟩⟩

/-- A write line that is refused, one that is permitted, a read line after a label, a faulted run. -/
theorem wit_program_line_is_one_access :
    (small.loadProgram [.wr .w8 0x10040 1]).host.StandsAt 0 (.wr .w8 0x10040 1) ∧
    (small.loadProgram [.wr .w8 0x10040 1]).host.faulted = false ∧
    answerOf (.write .w8 0x10040 1) (small.loadProgram [.wr .w8 0x10040 1]) = .busError ∧
    (small.loadProgram [.wr .w8 0x1003F 1]).host.StandsAt 0 (.wr .w8 0x1003F 1) ∧
    answerOf (.write .w8 0x1003F 1) (small.loadProgram [.wr .w8 0x1003F 1]) = .written ∧
    (small.loadProgram [.label "x", .rd .w32 0x000 "id"]).host.StandsAt 1 (.rd .w32 0x000 "id") ∧
    answerOf (.read .w32 0x000) (small.loadProgram [.label "x", .rd .w32 0x000 "id"]) = .data 0x4D49494F ∧
    (small.setHost ⟨[], 0, [], true⟩).host.faulted = true :=
  ⟨standsAt_single _ rfl, rfl, by decide +kernel, standsAt_single _ rfl, by decide +kernel,
    standsAt_labelled "x" _ rfl, by decide +kernel, rfl⟩

/-- A branch back to its own label with a value read twice, the later reading first; both branch lines; and
a program of labels alone. -/
theorem wit_branch_lines_test_the_last_value :
    (let h : HostProgram := ⟨[.label "w", .bnz "s" 1 "w"], 0, [("t", 1), ("s", 1), ("s", 0)], false⟩
     h.faulted = false ∧ h.LastRead "s" 1 ∧ h.LabelAt "w" 0 ∧ h.StandsAt 1 (.bnz "s" 1 "w")) ∧
    (small.loadProgram [.label "w", .bz "s" 1 "w"]).host.StandsAt 1 (.bz "s" 1 "w") ∧
    (∀ l ∈ [Line.label "a", .label "b"], ∃ n, l = .label n) :=
  ⟨⟨rfl, ⟨[("t", 1)], [("s", 0)], rfl, by decide⟩, ⟨rfl, fun q hq => absurd hq (Nat.not_lt_zero q)⟩,
      ⟨Nat.zero_le 1, rfl, rfl, fun j _ hj => ⟨"w", by rw [Nat.lt_one_iff.mp hj]; rfl⟩⟩⟩,
    standsAt_labelled "w" _ rfl, by simp⟩

/-- The invariant is met by the state after reset and by one with a command pending, and both step on. -/
theorem wit_step_keeps_the_invariant :
    State.reset.Inv ∧ ((keyed State.reset).poke 32 [0x61]).MemoryOk ∧ (State.reset.accept 0x10).Inv ∧
    isNext (step State.reset) = true ∧ isNext (step (State.reset.accept 0x10)) = true :=
  ⟨⟨by decide +kernel, by decide +kernel, by decide +kernel, by decide +kernel, by intro h; cases h⟩,
   by decide +kernel,
   ⟨by decide +kernel, by decide +kernel, by decide +kernel, by decide +kernel, by intro h; cases h⟩,
   by decide +kernel, by decide +kernel⟩

/-- With KEYV = 1 too: the state that DERIVE leaves. -/
theorem wit_step_keeps_the_invariant_keyed :
    (keyed State.reset).Inv ∧ isNext (step (keyed State.reset)) = true :=
  ⟨⟨by decide +kernel, by decide +kernel, by decide +kernel, by decide +kernel, fun _ => by decide +kernel⟩,
   by decide +kernel⟩

end Witnesses

end Sys2Proof.Tests
end

section
/-! The decoder and the well-formedness check of a command word say the same (spec/30_encoding.md R90 to
R92). -/

namespace Sys2Proof

theorem opcField_toNat (w : Word) : (opcField w).toNat = w.toNat % 256 := by
  simp [opcField]

/-- The check `rsvZero` looks at the field RSV. -/
theorem rsvField_eq_zero_iff (w : Word) : rsvField w = 0 ↔ rsvZero w = true := by
  have hw := w.isLt
  have hrsv : (rsvField w).toNat = w.toNat / 256 := by
    simp only [rsvField, BitVec.extractLsb'_toNat, Nat.shiftRight_eq_div_pow]
    omega
  rw [rsvZero, beq_iff_eq, ← hrsv, ← BitVec.toNat_inj]
  rfl

/-- The opcode table has no row exactly for the opcodes that R92 lists. -/
theorem decodeOpc_error_iff (opc : Byte) :
    (∃ r, decodeOpc opc = .error r) ↔ unassigned opc.toNat = true := by
  have hopc := opc.isLt
  unfold decodeOpc
  split
  case h_14 =>
    simp only [Except.error.injEq, exists_eq', unassigned, Bool.or_eq_true, Bool.and_eq_true,
      decide_eq_true_eq, true_iff]
    simp only [imp_false] at *
    omega
  all_goals simp [unassigned, *]

/-- The words that decode to no command are the ill-formed ones (R92). -/
theorem decode_error_iff (w : Word) : (∃ r, decode w = .error r) ↔ commandWordWf w = false := by
  by_cases hrsv : rsvField w = 0
  · have hdecode : decode w = decodeOpc (opcField w) := if_neg (not_not_intro hrsv)
    have hzero := (rsvField_eq_zero_iff w).mp hrsv
    rw [hdecode, decodeOpc_error_iff, opcField_toNat]
    simp [commandWordWf, opcAssigned, hzero]
  · have hdecode : decode w = .error .reservedBits := if_pos hrsv
    have hzero : rsvZero w = false := eq_false_of_ne_true (mt (rsvField_eq_zero_iff w).mpr hrsv)
    simp [hdecode, commandWordWf, hzero]

end Sys2Proof
end

section
/-! Which offsets are data state, which are reserved, and which accesses the port performs
(spec/10_state.md R24, R40; spec/20_memory.md R63 to R65; spec/70_reset_and_hazards.md R294). -/

namespace Sys2Proof.Machine

theorem wordRegion_reserved (j : Nat) (h : 11 ≤ j) : wordRegion j = .reserved := by
  obtain ⟨k, rfl⟩ := Nat.exists_eq_add_of_le' h
  rfl

/-- The data state among the 32-bit registers is the operand registers. -/
theorem wordRegion_isData_iff (j : Nat) : (wordRegion j).isData = true ↔ 5 ≤ j ∧ j ≤ 10 := by
  by_cases h : 11 ≤ j
  · rw [wordRegion_reserved j h]
    simp only [Region.isData, Bool.false_eq_true, false_iff]
    omega
  · have hj : j < 11 := by omega
    clear h
    revert j
    decide

/-- The offsets from TOKEN on that are data state (R294). -/
theorem regionOf_isData_iff_of_ge (off : Nat) (h : 0x40 ≤ off) :
    (regionOf off).isData = true ↔ off < 0x80 ∨ 0x10000 ≤ off := by
  unfold regionOf
  rw [if_neg (by omega)]
  split_ifs <;> simp [Region.isData] <;> omega

theorem regionOf_isData_iff (off : Nat) : (regionOf off).isData = true ↔ DataOffset off := by
  by_cases h : off < 0x40
  · rw [regionOf_word off h, wordRegion_isData_iff, DataOffset]
    omega
  · rw [regionOf_isData_iff_of_ge off (by omega), DataOffset]
    omega

/-- The reserved offsets (R40). -/
theorem regionOf_reserved (off : Nat)
    (h : (0x02C ≤ off ∧ off < 0x040) ∨ (0x080 ≤ off ∧ off < 0x10000)) : regionOf off = .reserved := by
  rcases h with ⟨hlo, hhi⟩ | ⟨hlo, hhi⟩
  · rw [regionOf_word off hhi, wordRegion_reserved _ (by omega)]
  · unfold regionOf
    iterate 5 rw [if_neg (by omega)]
    rw [if_pos hhi]

/-- An access is aligned to its width, and one below TOKEN has 32 bits (R63, R64). -/
theorem shapeOk_iff (w : Width) (off : Nat) :
    shapeOk w off = true ↔ ¬ off % widthBytes w ≠ 0 ∧ ¬(off < 0x040 ∧ w ≠ .w32) := by
  simp only [shapeOk, Bool.and_eq_true, Bool.or_eq_true, beq_iff_eq, decide_eq_true_eq, not_and_or,
    not_lt, ne_eq, not_not]

/-- An access to the DBUF window ends inside the buffer (R65). -/
theorem insideDbuf_iff (s : State) (w : Width) (off : Nat) :
    insideDbuf s w off = true ↔
      ¬(0x10000 ≤ off ∧ s.dbufBytes < off - 0x10000 + widthBytes w) := by
  simp only [insideDbuf, Bool.or_eq_true, decide_eq_true_eq, not_and_or, not_le, not_lt]

/-- The port performs exactly the accesses that are not refused (R63 to R66, R294). -/
theorem permitted_iff (s : State) (w : Width) (off : Nat) :
    permitted s w off = true ↔ ¬ RefusedAccess s w off := by
  simp only [permitted, RefusedAccess, Bool.and_eq_true, shapeOk_iff, insideDbuf_iff, Bool.not_eq_true',
    Bool.and_eq_false_iff, ← regionOf_isData_iff, not_or, not_and_or, Bool.not_eq_true, and_assoc]

/-- A control register takes every 32-bit access, busy or not. -/
theorem permitted_control (s : State) (off : Nat) (halign : off % 4 = 0) (h : off < 0x014) :
    permitted s .w32 off = true := by
  rw [permitted_iff]
  simp only [RefusedAccess, DataOffset, widthBytes, ne_eq, not_true_eq_false, and_false, false_or]
  omega

theorem answerOf_read (s : State) (w : Width) (off : Nat) (h : permitted s w off = true) :
    answerOf (.read w off) s = .data (readRegion s w (regionOf off)) := if_pos h

theorem answerOf_write (s : State) (w : Width) (off : Nat) (v : Word) (h : permitted s w off = true) :
    answerOf (.write w off v) s = .written := if_pos h

end Sys2Proof.Machine
end

section
/-! CTRL, CMD and STATUS at the port (spec/10_state.md R26 to R28), the engine's turn on an illegal word
(spec/30_encoding.md R92), and the interrupt output (spec/10_state.md R43). -/

namespace Sys2Proof.Machine

variable (s : State)

theorem applyAccess_write_ctrl (v : Word) : applyAccess (.write .w32 0x004 v) s = s.writeCtrl v :=
  applyAccess_write .w32 0x004 v s (permitted_control s 0x004 rfl (by decide))

theorem applyAccess_write_cmd (w : Word) : applyAccess (.write .w32 0x008 w) s = s.writeCmd w :=
  applyAccess_write .w32 0x008 w s (permitted_control s 0x008 rfl (by decide))

theorem applyAccess_write_status (v : Word) :
    applyAccess (.write .w32 0x00C v) s = s.writeStatus v :=
  applyAccess_write .w32 0x00C v s (permitted_control s 0x00C rfl (by decide))

theorem answerOf_read_cmd : answerOf (.read .w32 0x008) s = .data s.cmd :=
  answerOf_read s .w32 0x008 (permitted_control s 0x008 rfl (by decide))

/-- A pending word that is no command completes with ILLEGAL_CMD, `OP` being bits 7..0 of the word. -/
theorem engineTurn_illegal (hbusy : s.busy = true) (hwf : commandWordWf s.cmd = false) :
    engineTurn s = .next (s.failed .illegalCmd (s.cmd.extractLsb' 0 8)) := by
  obtain ⟨r, hr⟩ := (decode_error_iff s.cmd).mpr hwf
  rcases engineTurn_cases s with ⟨hidle, -⟩ | ⟨i, -, hi, -⟩ | ⟨-, -, -, hturn⟩
  · simp [hbusy] at hidle
  · simp [hr] at hi
  · exact hturn

theorem State.irq_eq_true_iff : s.irq = true ↔ s.ie = true ∧ (s.done = true ∨ s.err = true) := by
  simp [State.irq]

theorem State.irq_of_ie_clear (h : s.ie = false) : s.irq = false := by simp [State.irq, h]

theorem State.irq_of_results_clear (hdone : s.done = false) (herr : s.err = false) :
    s.irq = false := by simp [State.irq, hdone, herr]

/-- A CTRL write that does not set IE leaves IE = 0, by SRST or by storing the 0 (R26). -/
theorem State.writeCtrl_ie_clear (v : Word) (h : v.getLsbD 0 = false) : (s.writeCtrl v).ie = false := by
  cases hsrst : v.getLsbD 1 with
  | true => rw [s.writeCtrl_reset v hsrst, State.hardReset_ie]
  | false => rw [s.writeCtrl_ie v hsrst, State.setIe_ie, h]

theorem flagBit_getLsbD (b : Bool) (n m : Nat) (hm : m < 32) :
    (flagBit b n).getLsbD m = (b && decide (n = m)) := by
  cases b with
  | false => simp [flagBit]
  | true =>
    simp only [flagBit, if_true, BitVec.getLsbD_ofNat, Nat.testBit_two_pow, hm, decide_true]

theorem State.statusWord_getLsbD (m : Nat) (hm : m < 32) :
    s.statusWord.getLsbD m =
      (s.busy && decide (0 = m) || s.done && decide (1 = m) || s.err && decide (2 = m)
        || s.keyv && decide (3 = m) || s.ovr && decide (4 = m) || s.irq && decide (5 = m)) := by
  simp only [State.statusWord, BitVec.getLsbD_or, flagBit_getLsbD _ _ m hm]

theorem State.statusWord_irq : s.statusWord.getLsbD 5 = s.irq := by
  rw [s.statusWord_getLsbD 5 (by decide)]
  simp

end Sys2Proof.Machine
end

section
/-! The statements of spec/10_state.md on CMD, on the interrupt output and on the reserved offsets. -/

namespace Sys2Proof.Machine

/-- Settles O8: the write is `State.writeCmd` in every state, and an illegal word, once accepted, has only
one outcome at the engine's turn. -/
theorem commandWriteAcceptsOrDrops : Obligations.CommandWriteAcceptsOrDrops := by
  refine ⟨fun _ => rfl, State.hardReset_cmd, fun s w => ?_⟩
  have hidle (h : s.busy = false) : applyAccess (.write .w32 0x008 w) s = s.accept w := by
    rw [applyAccess_write_cmd, s.writeCmd_idle w h]
  refine ⟨hidle, fun hbusy => ?_, answerOf_read_cmd s, applyAccess_read .w32 0x008 s, fun h hwf => ?_⟩
  · rw [applyAccess_write_cmd, s.writeCmd_busy w hbusy]
    rfl
  · rw [hidle h]
    exact engineTurn_illegal (s.accept w) (s.accept_busy w) hwf

/-- Settles O47: each way to deassert clears one of the two factors of `IE & (DONE | ERR)`. -/
theorem interruptOutput : Obligations.InterruptOutput := by
  intro s
  refine ⟨s.irq_eq_true_iff, s.statusWord_irq, fun v hdone herr => ?_, fun v hie => ?_,
    fun hidle w => ?_, s.hardReset.irq_of_ie_clear s.hardReset_ie⟩
  · rw [applyAccess_write_status]
    exact State.irq_of_results_clear _ (by simp [hdone]) (by simp [herr])
  · rw [applyAccess_write_ctrl]
    exact State.irq_of_ie_clear _ (s.writeCtrl_ie_clear v hie)
  · rw [applyAccess_write_cmd, s.writeCmd_idle w hidle]
    exact State.irq_of_results_clear _ (s.accept_done w) (s.accept_err w)

/-- Settles O50: a permitted access meets the reserved region, and a refused one has no effect. -/
theorem reservedOffsetsAreRazWi : Obligations.ReservedOffsetsAreRazWi := by
  refine ⟨fun off hoff => ?_, fun s w off hrange => ?_⟩
  · obtain ⟨i, rfl⟩ := Nat.exists_eq_add_of_le hoff
    rw [regionOf_dbuf, Nat.add_sub_cancel_left]
  · have hregion := regionOf_reserved off hrange
    refine ⟨fun hok => ?_, fun v => ?_⟩
    · have hperm := (permitted_iff s w off).mpr hok
      refine ⟨?_, fun v => answerOf_write s w off v hperm⟩
      rw [answerOf_read s w off hperm, hregion]
      rfl
    · cases hperm : permitted s w off with
      | true => rw [applyAccess_write w off v s hperm, hregion]; rfl
      | false => exact applyAccess_refused w off v s hperm

end Sys2Proof.Machine
end

section
/-! The accesses the port refuses (spec/20_memory.md R63 to R66, spec/70_reset_and_hazards.md R294). -/

namespace Sys2Proof.Machine

theorem permitted_eq_false_iff (s : State) (w : Width) (off : Nat) :
    permitted s w off = false ↔ RefusedAccess s w off := by
  rw [← Bool.not_eq_true, permitted_iff, not_not]

/-- No data is a bus error: a read is answered with one exactly when it is not permitted. -/
theorem answerOf_read_eq_busError_iff (s : State) (w : Width) (off : Nat) :
    answerOf (.read w off) s = .busError ↔ permitted s w off = false := by
  cases h : permitted s w off with
  | true => simp [answerOf_read s w off h]
  | false => simp [answerOf, h]

theorem answerOf_write_eq_busError_iff (s : State) (w : Width) (off : Nat) (v : Word) :
    answerOf (.write w off v) s = .busError ↔ permitted s w off = false := by
  cases h : permitted s w off with
  | true => simp [answerOf_write s w off v h]
  | false => simp [answerOf, h]

/-- A bus error comes with no effect on the engine (R66). -/
theorem applyAccess_of_busError (a : Access) (s : State) (h : answerOf a s = .busError) :
    applyAccess a s = s := by
  cases a with
  | read w off => exact applyAccess_read w off s
  | write w off v =>
    exact applyAccess_refused w off v s ((answerOf_write_eq_busError_iff s w off v).mp h)

/-- Of an access answered with a bus error only the answer is left, on the record. -/
theorem hostAccess_of_busError (a : Access) (s : State) (h : answerOf a s = .busError) :
    hostAccess a s = { s with answers := .busError :: s.answers } := by
  rw [hostAccess, applyAccess_of_busError a s h, h, State.addAnswer]

/-- Settles O43: both kinds of access are answered with a bus error exactly when the port does not permit
them, and a bus error comes with no effect. -/
theorem refusedAccessHasNoEffect : Obligations.RefusedAccessHasNoEffect := by
  intro s w off a ha
  have hanswer : answerOf a s = .busError ↔ RefusedAccess s w off := by
    rw [← permitted_eq_false_iff]
    rcases ha with rfl | ⟨v, rfl⟩
    · exact answerOf_read_eq_busError_iff s w off
    · exact answerOf_write_eq_busError_iff s w off v
  refine ⟨hanswer, fun hrefused => ?_⟩
  have hbus := hanswer.mpr hrefused
  exact ⟨applyAccess_of_busError a s hbus, hostAccess_of_busError a s hbus⟩

end Sys2Proof.Machine
end

section
/-! What the decoder answers, by the opcode table (spec/30_encoding.md R90, R91). -/

namespace Sys2Proof

/-- The opcode table has one row for each command. -/
theorem decodeOpc_eq_ok_iff (opc : Byte) (i : Instr) : decodeOpc opc = .ok i ↔ opc = opcodeOf i := by
  constructor
  · intro h
    rw [← BitVec.toNat_inj]
    unfold decodeOpc at h
    split at h
    case h_14 => cases h
    all_goals
      cases h
      assumption
  · rintro rfl
    cases i <;> rfl

/-- A word decodes as its opcode does when RSV is 0, and is rejected otherwise. -/
theorem decode_eq_ok_iff_fields (w : Word) (i : Instr) :
    decode w = .ok i ↔ rsvField w = 0 ∧ opcField w = opcodeOf i := by
  by_cases hrsv : rsvField w = 0
  · have hdecode : decode w = decodeOpc (opcField w) := if_neg (not_not_intro hrsv)
    rw [hdecode, decodeOpc_eq_ok_iff]
    exact (and_iff_right hrsv).symm
  · have hdecode : decode w = .error .reservedBits := if_pos hrsv
    rw [hdecode]
    exact iff_of_false nofun fun ⟨hzero, _⟩ => hrsv hzero

/-- The decoder looks the whole word up: the word, as a number, is the command's opcode. -/
theorem decode_eq_ok_iff_toNat (w : Word) (i : Instr) :
    decode w = .ok i ↔ w.toNat = (opcodeOf i).toNat := by
  have hopc := (opcodeOf i).isLt
  rw [decode_eq_ok_iff_fields, rsvField_eq_zero_iff, rsvZero, beq_iff_eq, ← BitVec.toNat_inj,
    opcField_toNat]
  omega

end Sys2Proof
end

section
/-! ERRINFO after a completion in error (spec/10_state.md R29, spec/60_exceptions.md R250), and the engine's
turn on an illegal word once accepted (spec/30_encoding.md R92). -/

namespace Sys2Proof.Machine

theorem State.failed_errinfoWord (s : State) (code : ErrCode) (op : Byte) :
    (s.failed code op).errinfoWord = (0 : BitVec 16) ++ op ++ errNumber code := rfl

theorem engineTurn_accept_illegal (s : State) (w : Word) (hwf : commandWordWf w = false) :
    engineTurn (s.accept w) = .next ((s.accept w).failed .illegalCmd (w.extractLsb' 0 8)) :=
  engineTurn_illegal (s.accept w) (s.accept_busy w) hwf

/-- ERRINFO after an illegal word holds the word's bits 7..0 and the number of ILLEGAL_CMD, whatever the
state the word was accepted in. -/
theorem exists_engineTurn_accept_errinfoWord (s : State) (w : Word) (hwf : commandWordWf w = false) :
    ∃ t, engineTurn (s.accept w) = .next t ∧
      t.errinfoWord = (0 : BitVec 16) ++ w.extractLsb' 0 8 ++ errNumber .illegalCmd :=
  ⟨_, engineTurn_accept_illegal s w hwf, State.failed_errinfoWord _ _ _⟩

end Sys2Proof.Machine
end

section
/-! The statements of spec/30_encoding.md on the opcode table, the illegal words and the worked encodings. -/

namespace Sys2Proof.Machine

/-- Settles O1: a word decodes to a command exactly when it is the command's opcode, and each command has
exactly one row, the one of its opcode. -/
theorem decodeIsTheOpcodeTable : Obligations.DecodeIsTheOpcodeTable := by
  intro w i
  rw [decode_eq_ok_iff_toNat]
  cases i <;> simp [opcodeOf]

/-- Settles O3: the decoder rejects the words R92 lists, and a rejected word takes the way of any command
until its engine step, which has only one outcome. -/
theorem illegalWordsCompleteInError : Obligations.IllegalWordsCompleteInError := by
  refine fun w => ⟨decode_error_iff w, fun hwf s => ⟨fun hidle => ?_, fun hbusy hcmd => ?_⟩⟩
  · rw [applyAccess_write_cmd, s.writeCmd_idle w hidle]
  · subst hcmd
    exact engineTurn_illegal s hbusy hwf

/-- Settles O4: the encodings are evaluated, and ERRINFO after each of the two words is the value that every
illegal word leaves. -/
theorem workedEncodings : Obligations.WorkedEncodings := by
  refine ⟨by decide, by decide, by decide, by decide, by decide, by decide, by decide, fun s => ⟨?_, ?_⟩⟩
  · exact exists_engineTurn_accept_errinfoWord s 0x00000140 (by decide)
  · exact exists_engineTurn_accept_errinfoWord s 0x00000015 (by decide)

end Sys2Proof.Machine
end

section
/-! AES-128 decryption undoes encryption (spec/41_cipher.md R140, R143): each layer of a round is undone by its
inverse layer, so each round by its inverse round, whatever the round keys are. -/

namespace Sys2Proof.Machine

/-- The reduction in `xtime` depends on the top bit alone, and linearly. -/
theorem xtimeReduction_xor (p q : Bool) : (if p ^^ q then 0x1b else 0x00 : Byte) =
    (if p then 0x1b else 0x00) ^^^ (if q then 0x1b else 0x00) := by
  cases p <;> cases q <;> rfl

theorem xtime_xor (a b : Byte) : xtime (a ^^^ b) = xtime a ^^^ xtime b := by
  simp only [xtime, BitVec.shiftLeft_xor_distrib, BitVec.getLsbD_xor, xtimeReduction_xor]
  ac_rfl

/-- What one bit of the constant adds to a product is linear too. -/
theorem selected_xor (c : Bool) (x y : Byte) : (if c then x ^^^ y else 0) =
    (if c then x else 0) ^^^ (if c then y else 0) := by
  cases c <;> simp

theorem gmulBits_xor (n : Nat) :
    ∀ b x y : Byte, gmulBits n b (x ^^^ y) = gmulBits n b x ^^^ gmulBits n b y := by
  induction n with
  | zero => intro b x y; simp [gmulBits]
  | succ n ih =>
    intro b x y
    by_cases hb : b = 0
    · simp [gmulBits, hb]
    · simp only [gmulBits, if_neg hb, selected_xor, xtime_xor, ih]
      ac_rfl

/-- Multiplication by a constant is linear over AddRoundKey's exclusive or (R145). -/
theorem gmul_xor (b x y : Byte) : gmul b (x ^^^ y) = gmul b x ^^^ gmul b y := gmulBits_xor 8 b x y

/-- The two tables on every byte (R141, R144). -/
theorem invSbox_sbox : ∀ a : Byte, invSbox (sbox a) = a := by decide +kernel

theorem invSubBytes_subBytes (s : Block) : invSubBytes (subBytes s) = s := by
  ext i hi
  simp [invSubBytes, subBytes, invSbox_sbox]

theorem invShiftRows_shiftRows (s : Block) : invShiftRows (shiftRows s) = s := by
  apply Vector.ext
  intro i hi
  simp only [invShiftRows, shiftRows, Vector.getElem_ofFn]
  congr 1
  omega

/-- A row of InvMixColumns, from the bytes of its column counted from that row on (R143). -/
def unmixRow (b0 b1 b2 b3 : Byte) : Byte :=
  gmul 0x0e b0 ^^^ gmul 0x0b b1 ^^^ gmul 0x0d b2 ^^^ gmul 0x09 b3

/-- MixColumns puts a byte into its own row twice, thrice into the row above and once into the other two;
InvMixColumns sums these to that byte … -/
theorem unmixRow_same : ∀ a : Byte,
    unmixRow (gmul 0x02 a) (gmul 0x01 a) (gmul 0x01 a) (gmul 0x03 a) = a := by decide +kernel

/-- … and to nothing in each of the other rows. -/
theorem unmixRow_other : ∀ a : Byte,
    unmixRow (gmul 0x03 a) (gmul 0x02 a) (gmul 0x01 a) (gmul 0x01 a) = 0 ∧
    unmixRow (gmul 0x01 a) (gmul 0x03 a) (gmul 0x02 a) (gmul 0x01 a) = 0 ∧
    unmixRow (gmul 0x01 a) (gmul 0x01 a) (gmul 0x03 a) (gmul 0x02 a) = 0 := by decide +kernel

theorem unmixRow_mixed (a0 a1 a2 a3 : Byte) :
    unmixRow (gmul 0x02 a0 ^^^ gmul 0x03 a1 ^^^ gmul 0x01 a2 ^^^ gmul 0x01 a3)
      (gmul 0x02 a1 ^^^ gmul 0x03 a2 ^^^ gmul 0x01 a3 ^^^ gmul 0x01 a0)
      (gmul 0x02 a2 ^^^ gmul 0x03 a3 ^^^ gmul 0x01 a0 ^^^ gmul 0x01 a1)
      (gmul 0x02 a3 ^^^ gmul 0x03 a0 ^^^ gmul 0x01 a1 ^^^ gmul 0x01 a2) = a0 := by
  obtain ⟨h1, -, -⟩ := unmixRow_other a1
  obtain ⟨-, h2, -⟩ := unmixRow_other a2
  obtain ⟨-, -, h3⟩ := unmixRow_other a3
  calc
    _ = unmixRow (gmul 0x02 a0) (gmul 0x01 a0) (gmul 0x01 a0) (gmul 0x03 a0) ^^^
        unmixRow (gmul 0x03 a1) (gmul 0x02 a1) (gmul 0x01 a1) (gmul 0x01 a1) ^^^
        unmixRow (gmul 0x01 a2) (gmul 0x03 a2) (gmul 0x02 a2) (gmul 0x01 a2) ^^^
        unmixRow (gmul 0x01 a3) (gmul 0x01 a3) (gmul 0x03 a3) (gmul 0x02 a3) := by
      simp only [unmixRow, gmul_xor]
      ac_rfl
    _ = a0 := by
      rw [unmixRow_same, h1, h2, h3]
      simp only [BitVec.ofNat_eq_ofNat, BitVec.xor_zero]

/-- The columns of a mixed block: `columnByte` counts its rows modulo 4 from the row of `i`, before and after. -/
theorem columnByte_mixWith (m0 m1 m2 m3 : Byte) (s : Block) (i : Fin 16) (j : Nat) :
    columnByte (mixWith m0 m1 m2 m3 s) i j =
      gmul m0 (columnByte s i j) ^^^ gmul m1 (columnByte s i (j + 1)) ^^^
        gmul m2 (columnByte s i (j + 2)) ^^^ gmul m3 (columnByte s i (j + 3)) := by
  have hrow (d : Nat) : 4 * ((4 * (i.val / 4) + (i.val % 4 + j) % 4) / 4) +
      ((4 * (i.val / 4) + (i.val % 4 + j) % 4) % 4 + d) % 4 =
        4 * (i.val / 4) + (i.val % 4 + (j + d)) % 4 := by omega
  simp only [columnByte, mixWith, Vector.getElem_ofFn, hrow]
  rfl

theorem columnByte_wrap (s : Block) (i : Fin 16) (j : Nat) (h : 4 ≤ j) :
    columnByte s i j = columnByte s i (j - 4) := by
  simp only [columnByte]
  congr 1
  omega

theorem getElem_eq_columnByte (s : Block) (i : Nat) (h : i < 16) : s[i] = columnByte s ⟨i, h⟩ 0 := by
  simp only [columnByte]
  congr 1
  omega

theorem invMixColumns_mixColumns (s : Block) : invMixColumns (mixColumns s) = s := by
  apply Vector.ext
  intro i hi
  rw [getElem_eq_columnByte, getElem_eq_columnByte s, invMixColumns, mixColumns]
  simp only [columnByte_mixWith, columnByte_wrap, Nat.reduceAdd, Nat.reduceLeDiff, Nat.reduceSub]
  exact unmixRow_mixed _ _ _ _

/-- The inverse layers undo the two layers that precede the round key. -/
theorem invSubBytes_invShiftRows (s : Block) : invSubBytes (invShiftRows (shiftRows (subBytes s))) = s := by
  rw [invShiftRows_shiftRows, invSubBytes_subBytes]

theorem xorBlock_cancel (a b : Block) : xorBlock (xorBlock a b) b = a := by
  ext i hi
  simp [xorBlock]

/-- Round `r` of R143 undoes round `r` of R140, seen from inside the next round: after its SubBytes and
ShiftRows. -/
theorem decRound_encRound (s rk : Block) :
    decRound (shiftRows (subBytes (encRound s rk))) rk = shiftRows (subBytes s) := by
  rw [decRound, invSubBytes_invShiftRows, encRound, xorBlock_cancel, invMixColumns_mixColumns]

theorem foldl_decRound_encRound (rks : List Block) : ∀ s : Block,
    rks.reverse.foldl decRound (shiftRows (subBytes (rks.foldl encRound s))) = shiftRows (subBytes s) := by
  induction rks with
  | nil => intro s; rfl
  | cons rk rks ih =>
    intro s
    rw [List.foldl_cons, List.reverse_cons, List.foldl_append, ih, List.foldl_cons, List.foldl_nil,
      decRound_encRound]

theorem aesDec_aesEnc (k b : Block) : aesDec k (aesEnc k b) = b := by
  simp only [aesDec, aesEnc, xorBlock_cancel, foldl_decRound_encRound, invSubBytes_invShiftRows]

end Sys2Proof.Machine
end

section
/-! Cipher-block chaining is undone block by block (spec/41_cipher.md R146, R147). -/

namespace Sys2Proof.Machine

theorem cbcDecBlocks_cbcEncBlocks (k : Block) (ps : List Block) :
    ∀ prev, cbcDecBlocks k prev (cbcEncBlocks k prev ps) = ps := by
  induction ps with
  | nil => intro prev; rfl
  | cons p ps ih => intro prev; simp only [cbcEncBlocks, cbcDecBlocks, ih, aesDec_aesEnc, xorBlock_cancel]

theorem cbcDec_cbcEnc (k iv : Block) (p : List Byte) (h : p.length % 16 = 0) :
    cbcDec k iv (cbcEnc k iv p) = p := by
  have hblocks : blocksOf (p.length / blockBytes) (cbcEnc k iv p) =
      cbcEncBlocks k iv (blocksOf (p.length / blockBytes) p) := by
    have h := blocksOf_flatMap (cbcEncBlocks k iv (blocksOf (p.length / blockBytes) p))
    rwa [cbcEncBlocks_length, blocksOf_length] at h
  rw [cbcDec, cbcEnc_length k iv p h, hblocks, cbcDecBlocks_cbcEncBlocks]
  exact flatMap_blocksOf _ p (by simp only [blockBytes]; omega)

end Sys2Proof.Machine
end

section
/-! The padding of a byte sequence is good padding, and says how much to remove (spec/41_cipher.md R149,
R150). -/

namespace Sys2Proof.Machine

theorem withPadding_length (p : List Byte) :
    (withPadding p).length = p.length + padLength p.length := by
  simp [withPadding]

theorem claimedPad_withPadding (p : List Byte) : claimedPad (withPadding p) = padLength p.length := by
  obtain ⟨hpos, hle, -⟩ := padLength_spec p.length
  have hlast : (withPadding p).getLastD 0x00 = BitVec.ofNat 8 (padLength p.length) := by
    rw [withPadding, padBytes, show padLength p.length = (padLength p.length - 1) + 1 by omega,
      List.replicate_succ', ← List.append_assoc, List.getLastD_concat]
  rw [claimedPad, hlast, BitVec.toNat_ofNat]
  omega

theorem goodPadding_withPadding (p : List Byte) : GoodPadding (withPadding p) := by
  obtain ⟨hpos, -, hblocks⟩ := padLength_spec p.length
  rw [GoodPadding, claimedPad_withPadding, withPadding_length, Nat.add_sub_cancel]
  exact ⟨by omega, by omega, hblocks, List.drop_left⟩

theorem take_withPadding (p : List Byte) :
    (withPadding p).take ((withPadding p).length - claimedPad (withPadding p)) = p := by
  rw [claimedPad_withPadding, withPadding_length, Nat.add_sub_cancel]
  exact List.take_left

end Sys2Proof.Machine
end

section
/-! The body as the commands read and write it (spec/20_memory.md R60, R78). -/

namespace Sys2Proof.Machine

@[simp] theorem State.body_length (s : State) : s.body.length = s.bodyLen := s.peek_length _ _

@[simp] theorem State.accept_body (s : State) (w : Word) : (s.accept w).body = s.body := rfl

@[simp] theorem State.accept_bodyLen (s : State) (w : Word) : (s.accept w).bodyLen = s.bodyLen := rfl

@[simp] theorem State.finishDone_body (s : State) : s.finishDone.body = s.body := rfl

theorem State.bodyPastEnd_eq_false (s : State) (h : bodyOffset + s.bodyLen ≤ s.dbufBytes) :
    s.bodyPastEnd = false := decide_eq_false (by omega)

/-- The body after BLEN is set to a length that fits the register. -/
theorem State.setBlen_body (s : State) (n : Nat) (h : n < 2 ^ 32) :
    (s.setBlen n).body = s.peek bodyOffset n := by
  have hlen : (s.setBlen n).bodyLen = n := Nat.mod_eq_of_lt h
  rw [State.body, hlen]
  rfl

/-- The body after another one of the same length is written over it. -/
theorem State.poke_body (s : State) (bs : List Byte) (h : bs.length = s.bodyLen) :
    (s.poke bodyOffset bs).body = bs := by
  rw [State.body, State.poke_bodyLen, ← h, State.peek_poke_same]

theorem State.peek_take (s : State) (a m n : Nat) (h : m ≤ n) : (s.peek a n).take m = s.peek a m := by
  rw [show n = m + (n - m) by omega, State.peek_append, List.take_left' (s.peek_length a m)]

theorem State.peek_drop (s : State) (a m n : Nat) (h : m ≤ n) :
    (s.peek a n).drop m = s.peek (a + m) (n - m) := by
  conv_lhs => rw [show n = m + (n - m) by omega]
  rw [State.peek_append, List.drop_left' (s.peek_length a m)]

/-- The last byte of a non-empty body, as UNPAD reads it (R150). -/
theorem State.peek_last (s : State) (h : s.bodyLen ≠ 0) :
    ((s.peek (bodyOffset + s.bodyLen - 1) 1).getD 0 0).toNat = claimedPad s.body := by
  have hbody : s.body = s.peek bodyOffset (s.bodyLen - 1) ++ [s.byte (bodyOffset + s.bodyLen - 1)] := by
    rw [State.body, show s.bodyLen = s.bodyLen - 1 + 1 by omega, State.peek_append]
    rfl
  rw [claimedPad, hbody, List.getLastD_concat]
  rfl

end Sys2Proof.Machine
end

section
/-! What the successful PAD, UNPAD, ENC and DEC do, each to its whole state (spec/41_cipher.md R149 to
R152). -/

namespace Sys2Proof.Machine

variable (s : State)

theorem exec_pad (hne : s.bodyLen ≠ 0)
    (hfit : bodyOffset + s.bodyLen + padLength s.bodyLen ≤ s.dbufBytes) :
    exec .pad s = .next ((s.poke (bodyOffset + s.bodyLen) (padBytes (padLength s.bodyLen))).setBlen
      (s.bodyLen + padLength s.bodyLen)).finishDone := by
  have hin := s.bodyPastEnd_eq_false (by omega)
  change (runPad s).finish = _
  simp [runPad, hin, hne, hfit, Nat.not_lt.mpr hfit]

/-- The body read, turned by ENC or DEC into another of its length, and written back. -/
theorem State.memRead_memWrite_body (f : List Byte → List Byte)
    (hin : bodyOffset + s.bodyLen ≤ s.dbufBytes) (hlen : (f s.body).length = s.bodyLen) :
    s.memRead bodyOffset s.bodyLen (fun p => s.memWrite bodyOffset (f p) fun s => .complete s) =
      .complete (s.poke bodyOffset (f s.body)) := by
  rw [s.memRead_of_le _ _ _ hin, ← State.body, s.memWrite_of_le _ _ _ (by omega)]

theorem exec_enc (hkey : s.keyv = true) (hin : bodyOffset + s.bodyLen ≤ s.dbufBytes)
    (halign : s.bodyLen % blockBytes = 0) :
    exec .enc s = .next (s.poke bodyOffset (cbcEnc s.key s.iv s.body)).finishDone := by
  have hend := s.bodyPastEnd_eq_false hin
  have hlen := cbcEnc_length s.key s.iv s.body (s.body_length ▸ halign)
  change (runEnc s).finish = _
  simp [runEnc, hkey, hend, halign, s.memRead_memWrite_body _ hin (hlen.trans s.body_length)]

theorem exec_dec (hkey : s.keyv = true) (hin : bodyOffset + s.bodyLen ≤ s.dbufBytes)
    (halign : s.bodyLen % blockBytes = 0) :
    exec .dec s = .next (s.poke bodyOffset (cbcDec s.key s.iv s.body)).finishDone := by
  have hend := s.bodyPastEnd_eq_false hin
  have hlen := cbcDec_length s.key s.iv s.body (s.body_length ▸ halign)
  change (runDec s).finish = _
  simp [runDec, hkey, hend, halign, s.memRead_memWrite_body _ hin (hlen.trans s.body_length)]

theorem exec_unpad (hin : bodyOffset + s.bodyLen ≤ s.dbufBytes) (hgood : GoodPadding s.body) :
    exec .unpad s = .next (s.setBlen (s.bodyLen - claimedPad s.body)).finishDone := by
  have hend := s.bodyPastEnd_eq_false hin
  obtain ⟨hpos, hle, halign, htail⟩ := hgood
  rw [s.body_length] at hle halign htail
  have hne : s.bodyLen ≠ 0 := by omega
  have hread : s.peek (bodyOffset + s.bodyLen - claimedPad s.body) (claimedPad s.body) =
      padBytes (claimedPad s.body) := by
    rw [State.body, s.peek_drop _ _ _ (by omega), ← State.body, Nat.sub_sub_self hle,
      ← Nat.add_sub_assoc hle] at htail
    exact htail
  have hchecks : ¬(claimedPad s.body = 0 ∨ s.bodyLen < claimedPad s.body ∨ s.bodyLen % blockBytes ≠ 0) := by
    simp only [blockBytes]
    omega
  change (runUnpad s).finish = _
  simp only [runUnpad, hend, Bool.false_eq_true, if_false, hne]
  rw [s.memRead_of_le _ _ _ (by omega), s.peek_last hne, if_neg hchecks, s.memRead_of_le _ _ _ (by omega),
    hread, if_neg (not_not_intro rfl), CmdEnd.finish_complete]

end Sys2Proof.Machine
end

section
/-! PAD, ENC, DEC and UNPAD as accepted and completed commands, by what they make of the body
(spec/41_cipher.md R149 to R153). -/

namespace Sys2Proof.Machine

/-- What no cipher command but DERIVE writes, and the next one depends on: the buffer's size and the session
key. -/
structure State.KeepsSession (s t : State) : Prop where
  dbufBytes : t.dbufBytes = s.dbufBytes
  keyv : t.keyv = s.keyv
  key : t.key = s.key
  iv : t.iv = s.iv

variable (s : State)

theorem completes_pad (hne : s.bodyLen ≠ 0)
    (hfit : bodyOffset + s.bodyLen + padLength s.bodyLen ≤ s.dbufBytes) :
    ∃ t, Completes .pad s t ∧ t.body = withPadding s.body ∧ s.KeepsSession t := by
  refine ⟨_, ⟨exec_pad (s.accept (encode .pad)) hne hfit, rfl, rfl⟩, ?_, ⟨rfl, rfl, rfl, rfl⟩⟩
  have hsize := s.dbufBytes_bounds
  have hpad := State.peek_poke_same (s.accept (encode .pad)) (bodyOffset + s.bodyLen)
    (padBytes (padLength s.bodyLen))
  rw [padBytes_length] at hpad
  rw [State.finishDone_body, State.accept_bodyLen, State.setBlen_body _ _ (by omega), State.peek_append,
    State.peek_poke_disjoint _ _ _ _ _ (.inl le_rfl), hpad, withPadding, s.body_length]
  rfl

theorem completes_enc (hkey : s.keyv = true) (hin : bodyOffset + s.bodyLen ≤ s.dbufBytes)
    (halign : s.bodyLen % blockBytes = 0) :
    ∃ t, Completes .enc s t ∧ t.body = cbcEnc s.key s.iv s.body ∧ s.KeepsSession t := by
  refine ⟨_, ⟨exec_enc (s.accept (encode .enc)) hkey hin halign, rfl, rfl⟩, ?_, ⟨rfl, rfl, rfl, rfl⟩⟩
  have hlen := cbcEnc_length s.key s.iv s.body (s.body_length ▸ halign)
  exact State.poke_body _ _ (hlen.trans s.body_length)

theorem completes_dec (hkey : s.keyv = true) (hin : bodyOffset + s.bodyLen ≤ s.dbufBytes)
    (halign : s.bodyLen % blockBytes = 0) :
    ∃ t, Completes .dec s t ∧ t.body = cbcDec s.key s.iv s.body ∧ s.KeepsSession t := by
  refine ⟨_, ⟨exec_dec (s.accept (encode .dec)) hkey hin halign, rfl, rfl⟩, ?_, ⟨rfl, rfl, rfl, rfl⟩⟩
  have hlen := cbcDec_length s.key s.iv s.body (s.body_length ▸ halign)
  exact State.poke_body _ _ (hlen.trans s.body_length)

/-- ENC and DEC in turn: the key has not changed between them, and DEC gives back what ENC took (R147). -/
theorem completes_enc_dec (hkey : s.keyv = true) (hin : bodyOffset + s.bodyLen ≤ s.dbufBytes)
    (halign : s.bodyLen % blockBytes = 0) :
    ∃ t u, Completes .enc s t ∧ Completes .dec t u ∧ u.body = s.body ∧ u.dbufBytes = s.dbufBytes := by
  have hblocks : s.body.length % 16 = 0 := s.body_length ▸ halign
  obtain ⟨t, henc, hbody, hkept⟩ := completes_enc s hkey hin halign
  have hlen : t.bodyLen = s.bodyLen := by
    rw [← t.body_length, hbody, cbcEnc_length _ _ _ hblocks, s.body_length]
  obtain ⟨u, hdec, hback, hkept'⟩ := completes_dec t (by rw [hkept.keyv, hkey])
    (by rwa [hkept.dbufBytes, hlen]) (by rwa [hlen])
  refine ⟨t, u, henc, hdec, ?_, hkept'.dbufBytes.trans hkept.dbufBytes⟩
  rw [hback, hkept.key, hkept.iv, hbody, cbcDec_cbcEnc _ _ _ hblocks]

theorem completes_unpad (hin : bodyOffset + s.bodyLen ≤ s.dbufBytes) (hgood : GoodPadding s.body) :
    ∃ t, Completes .unpad s t ∧ t.body = s.body.take (s.body.length - claimedPad s.body) := by
  refine ⟨_, ⟨exec_unpad (s.accept (encode .unpad)) hin hgood, rfl, rfl⟩, ?_⟩
  have hsize := s.dbufBytes_bounds
  rw [State.finishDone_body, State.setBlen_body _ _ (by simp; omega), s.body_length, State.accept_bodyLen,
    State.accept_body]
  exact (s.peek_take _ _ _ (Nat.sub_le _ _)).symm

/-- BLEN is the length of the body. -/
theorem State.blen_eq_of_body_eq (t : State) (h : t.body = s.body) : t.blen = s.blen := by
  apply BitVec.eq_of_toNat_eq
  rw [← State.bodyLen, ← State.bodyLen, ← t.body_length, ← s.body_length, h]

end Sys2Proof.Machine
end

section
/-! The statement of spec/41_cipher.md on the round trip of a body. -/

namespace Sys2Proof.Machine

/-- Settles O26: the padded body is a whole number of blocks, so DEC gives back what ENC took, and its padding
is good, so UNPAD gives back what PAD took. -/
theorem padEncDecUnpadRoundTrip : Obligations.PadEncDecUnpadRoundTrip := by
  intro s hkey hne hfit
  have hroom : bodyOffset + s.bodyLen + padLength s.bodyLen ≤ s.dbufBytes := by
    simp only [State.bodyLen, padLength, blockBytes, bodyOffset]
    omega
  obtain ⟨s1, hpad, hpadded, hkept⟩ := completes_pad s hne hroom
  have hlen (t : State) (ht : t.body = withPadding s.body) :
      t.bodyLen = s.bodyLen + padLength s.bodyLen := by
    rw [← t.body_length, ht, withPadding_length, s.body_length]
  obtain ⟨-, -, hblocks⟩ := padLength_spec s.bodyLen
  obtain ⟨s2, s3, henc, hdec, hback, hsize⟩ := completes_enc_dec s1 (by rw [hkept.keyv, hkey])
    (by rw [hkept.dbufBytes, hlen s1 hpadded]; omega) (by rw [hlen s1 hpadded, hblocks])
  rw [hpadded] at hback
  obtain ⟨s4, hunpad, hbody⟩ := completes_unpad s3
    (by rw [hsize, hkept.dbufBytes, hlen s3 hback]; omega) (hback ▸ goodPadding_withPadding s.body)
  rw [hback, take_withPadding] at hbody
  exact ⟨s1, s2, s3, s4, hpad, henc, hdec, hunpad, s.blen_eq_of_body_eq s4 hbody, hbody⟩

end Sys2Proof.Machine
end

section
/-! Adjacent writes of DBUF are one write, and a changed byte shows (spec/20_memory.md R78). -/

namespace Sys2Proof.Machine

theorem Memory.poke_append (xs ys : List Byte) : ∀ (m : Memory) (a : Nat),
    m.poke a (xs ++ ys) = (m.poke a xs).poke (a + xs.length) ys := by
  induction xs with
  | nil => intro m a; rfl
  | cons x xs ih =>
    intro m a
    rw [List.cons_append, Memory.poke_cons, Memory.poke_cons, ih, List.length_cons, Nat.add_right_comm,
      ← Nat.add_assoc]

theorem State.poke_append (s : State) (a : Nat) (xs ys : List Byte) :
    s.poke a (xs ++ ys) = (s.poke a xs).poke (a + xs.length) ys := by
  simp only [State.poke, Memory.poke_append]

/-- One byte changed inside a region changes what the region reads as. -/
theorem State.peek_poke_ne (s : State) (a n i : Nat) (b : Byte) (hlo : a ≤ i) (hhi : i < a + n)
    (hb : b ≠ s.byte i) : (s.poke i [b]).peek a n ≠ s.peek a n := by
  intro h
  have hbyte : (s.poke i [b]).byte (a + (i - a)) = s.byte (a + (i - a)) := by
    rw [← State.peek_getElem _ a n (i - a) (by simp; omega),
      ← State.peek_getElem s a n (i - a) (by simp; omega)]
    simp only [h]
  rw [Nat.add_sub_of_le hlo, State.byte_poke, if_pos (by simp)] at hbyte
  exact hb (by simpa using hbyte)

/-- A region of DBUF depends on the written bytes and the number of resets alone. -/
theorem State.peek_of_dbuf (s t : State) (a n : Nat) (hd : t.dbuf = s.dbuf) (hr : t.resets = s.resets) :
    t.peek a n = s.peek a n := s.peek_congr t a n fun i _ => s.byte_congr t hd hr (a + i)

end Sys2Proof.Machine
end

section
/-! What FDEC does past its range checks, and what the successful FENC does, to their whole states
(spec/42_frame.md R190 to R193). -/

namespace Sys2Proof.Machine

@[simp] theorem frameHead_length (len : Nat) (devid stamp : Word) : (frameHead len devid stamp).length = 16 :=
  rfl

@[simp] theorem magicBytes_length : magicBytes.length = 2 := rfl

variable (s : State)

/-- The slot of a well-formed frame, as FDEC reads it, is the digest FDEC computes (R191). -/
theorem State.wellFormedFrame_iff (h : 32 ≤ s.frameLen) :
    WellFormedFrame s.frame s.token ↔ s.peek 16 16 = s.imageDigest.toList := by
  rw [WellFormedFrame, State.frame, State.peek_drop _ _ _ _ (by omega), State.peek_take _ _ _ _ (by omega),
    State.peek_take _ _ _ _ (by omega), State.peek_drop _ _ _ _ (by omega)]
  rfl

/-- FDEC past its range checks (R193). EMPTY_BODY is unreachable: at least one byte follows the header. -/
theorem exec_fdec (hkey : s.keyv = true) (hmin : minFrame ≤ s.frameLen) (hin : s.frameLen ≤ s.dbufBytes) :
    exec .fdec s =
      if s.imageDigest.toList ≠ s.peek 16 16 then .next (s.failed .checksum 0x21)
      else .next ((s.setDigest s.imageDigest).setBlen (s.frameLen - bodyOffset)).finishDone := by
  have hend : s.framePastEnd = false := decide_eq_false (by omega)
  have hlen : s.frameLen - bodyOffset ≠ 0 := by simp only [minFrame, bodyOffset] at *; omega
  have hbody : bodyOffset + (s.frameLen - bodyOffset) ≤ s.dbufBytes := by omega
  have hslot : slotOffset + 16 ≤ s.dbufBytes := by simp only [minFrame, slotOffset] at *; omega
  change (runFdec s).finish = _
  simp only [runFdec, hkey, hend, Bool.not_true, Bool.false_eq_true, if_false, Nat.not_lt.mpr hmin, hlen]
  rw [s.memRead_of_le _ _ _ hslot, s.memRead_of_le _ _ _ (by omega), s.memRead_of_le _ _ _ hbody]
  exact apply_ite CmdEnd.finish _ _ _

/-- FDEC past its range checks raises CHECKSUM exactly when the digest of the image is not the slot; ERR tells
the two ends apart. -/
theorem exec_fdec_eq_checksum_iff (hkey : s.keyv = true) (herr : s.err = false)
    (hmin : minFrame ≤ s.frameLen) (hin : s.frameLen ≤ s.dbufBytes) :
    exec .fdec s = .next (s.failed .checksum 0x21) ↔ s.imageDigest.toList ≠ s.peek 16 16 := by
  rw [exec_fdec s hkey hmin hin]
  constructor
  · intro h hslot
    rw [if_neg (not_not_intro hslot)] at h
    have hclear := congrArg State.err (Host.Outcome.next.inj h)
    simp [State.failed, herr] at hclear
  · exact fun hslot => if_pos hslot

/-- DBUF as FENC hashes it: the frame with the token in its checksum slot (R191, R192). -/
def State.fencImage : State :=
  s.poke 0 (frameHead (bodyOffset + s.bodyLen) s.devid s.stamp ++ s.token.toList)

/-- DBUF, DIGEST and FLEN as FENC leaves them when the digest it computes is `d` (R192). -/
def State.framedWith (d : Block) : State :=
  ((s.fencImage.poke slotOffset d.toList).setDigest d).setFlen (bodyOffset + s.bodyLen)

@[simp] theorem State.fencImage_dbufBytes : s.fencImage.dbufBytes = s.dbufBytes := rfl

theorem State.fencImage_peek : s.fencImage.peek 0 (bodyOffset + s.bodyLen) =
    frameHead (bodyOffset + s.bodyLen) s.devid s.stamp ++ s.token.toList ++ s.body := by
  have hhead := s.peek_poke_same 0 (frameHead (bodyOffset + s.bodyLen) s.devid s.stamp ++ s.token.toList)
  have hbody : s.fencImage.peek bodyOffset s.bodyLen = s.body :=
    s.peek_poke_disjoint _ _ _ _ (.inr (by simp))
  rw [List.length_append, frameHead_length, Vector.length_toList] at hhead
  rw [State.peek_append, Nat.zero_add, hbody]
  exact congrArg (· ++ s.body) hhead

/-- The six header writes of FENC are one write of the header with the token as placeholder. -/
theorem State.poke_header : (((((s.poke 0 magicBytes).poke 2 (be16 (bodyOffset + s.bodyLen))).poke 4
    (List.replicate 4 0x00)).poke 8 (be32 s.devid)).poke 12 (be32 s.stamp)).poke slotOffset
    s.token.toList = s.fencImage := by
  rw [State.fencImage, frameHead]
  simp only [State.poke_append]
  rfl

theorem exec_fenc (hkey : s.keyv = true) (hin : bodyOffset + s.bodyLen ≤ s.dbufBytes)
    (hfit : bodyOffset + s.bodyLen ≤ maxFrame) :
    exec .fenc s = .next (s.framedWith (frameDigest s.devid s.stamp s.token s.body)).finishDone := by
  have hend := s.bodyPastEnd_eq_false hin
  have hsize := s.dbufBytes_bounds
  change (runFenc s).finish = _
  simp only [runFenc, hkey, hend, Bool.not_true, Bool.false_eq_true, if_false, Nat.not_lt.mpr hfit]
  simp (disch := simp [slotOffset]; omega) only [State.memWrite_of_le, State.poke_devid, State.poke_stamp,
    State.poke_token, s.poke_header]
  rw [State.memRead_of_le _ _ _ _ (by simpa using hin), State.fencImage_peek, CmdEnd.finish_complete,
    State.framedWith, frameDigest, State.body_length]

variable (d : Block)

@[simp] theorem State.framedWith_err : (s.framedWith d).err = s.err := by
  simp [State.framedWith, State.fencImage]

@[simp] theorem State.framedWith_token : (s.framedWith d).token = s.token := by
  simp [State.framedWith, State.fencImage]

@[simp] theorem State.framedWith_keyv : (s.framedWith d).keyv = s.keyv := by
  simp [State.framedWith, State.fencImage]

@[simp] theorem State.framedWith_key : (s.framedWith d).key = s.key := by
  simp [State.framedWith, State.fencImage]

@[simp] theorem State.framedWith_iv : (s.framedWith d).iv = s.iv := by
  simp [State.framedWith, State.fencImage]

@[simp] theorem State.framedWith_params : (s.framedWith d).params = s.params := by
  simp [State.framedWith, State.fencImage]

theorem State.framedWith_peek (a n : Nat) :
    (s.framedWith d).peek a n = (s.fencImage.poke slotOffset d.toList).peek a n :=
  State.peek_of_dbuf _ _ a n (by simp [State.framedWith]) (by simp [State.framedWith])

theorem State.framedWith_frameLen (hin : bodyOffset + s.bodyLen ≤ s.dbufBytes) :
    (s.framedWith d).frameLen = bodyOffset + s.bodyLen := by
  have hsize := s.dbufBytes_bounds
  rw [State.frameLen, State.framedWith, State.setFlen_flen, BitVec.toNat_ofNat]
  exact Nat.mod_eq_of_lt (by omega)

theorem State.framedWith_slot : (s.framedWith d).peek 16 16 = d.toList := by
  have h := s.fencImage.peek_poke_same slotOffset d.toList
  rw [Vector.length_toList] at h
  rw [State.framedWith_peek]
  exact h

/-- FENC writes below the body, so the body reads as before. -/
theorem State.framedWith_body : (s.framedWith d).peek bodyOffset s.bodyLen = s.body := by
  rw [State.framedWith_peek, State.peek_poke_disjoint _ _ _ _ _ (.inr (by simp)), State.fencImage,
    State.peek_poke_disjoint _ _ _ _ _ (.inr (by simp)), State.body]

theorem State.framedWith_head :
    (s.framedWith d).peek 0 16 = frameHead (bodyOffset + s.bodyLen) s.devid s.stamp := by
  have himage := congrArg (List.take 16) s.fencImage_peek
  rw [State.peek_take _ _ _ _ (by simp only [bodyOffset]; omega), List.append_assoc,
    List.take_left' (frameHead_length _ _ _)] at himage
  rw [State.framedWith_peek, State.peek_poke_disjoint _ _ _ 0 16 (.inl le_rfl), himage]

/-- The checksum image of the frame FENC leaves does not depend on the slot (R191). -/
theorem State.framedWith_imageDigest (hin : bodyOffset + s.bodyLen ≤ s.dbufBytes) :
    (s.framedWith d).imageDigest = frameDigest s.devid s.stamp s.token s.body := by
  rw [State.imageDigest, ← State.frameLen, s.framedWith_frameLen d hin, s.framedWith_head d,
    s.framedWith_token d, Nat.add_sub_cancel_left, s.framedWith_body d, frameDigest, s.body_length]

end Sys2Proof.Machine
end

section
/-! FENC and FDEC as accepted and completed commands, by what they make of the frame and the body
(spec/42_frame.md R192 to R194). -/

namespace Sys2Proof.Machine

variable (s : State)

@[simp] theorem State.finishDone_frameLen : s.finishDone.frameLen = s.frameLen := rfl

@[simp] theorem State.finishDone_peek (a n : Nat) : s.finishDone.peek a n = s.peek a n := rfl

@[simp] theorem State.finishDone_imageDigest : s.finishDone.imageDigest = s.imageDigest := rfl

theorem State.KeepsSession.trans {s t u : State} (h : s.KeepsSession t) (h' : t.KeepsSession u) :
    s.KeepsSession u :=
  ⟨h'.dbufBytes.trans h.dbufBytes, h'.keyv.trans h.keyv, h'.key.trans h.key, h'.iv.trans h.iv⟩

theorem completes_fenc (hkey : s.keyv = true) (hin : bodyOffset + s.bodyLen ≤ s.dbufBytes)
    (hfit : bodyOffset + s.bodyLen ≤ maxFrame) :
    ∃ t, Completes .fenc s t ∧ t.frameLen = bodyOffset + s.bodyLen ∧
      t.peek 16 16 = t.imageDigest.toList ∧ t.peek bodyOffset s.bodyLen = s.body ∧ s.KeepsSession t := by
  have hexec := exec_fenc (s.accept (encode .fenc)) hkey hin hfit
  refine ⟨_, ⟨hexec, State.finishDone_done _, ?_⟩, ?_, ?_, ?_, ?_⟩
  · simp
  · rw [State.finishDone_frameLen, State.framedWith_frameLen (s.accept _) _ hin, State.accept_bodyLen]
  · rw [State.finishDone_peek, State.finishDone_imageDigest, State.framedWith_slot,
      State.framedWith_imageDigest (s.accept _) _ hin]
  · rw [State.finishDone_peek, ← s.accept_bodyLen, State.framedWith_body, State.accept_body]
  · exact ⟨State.dbufBytes_of_params _ _ (by simp), by simp, by simp, by simp⟩

theorem completes_fdec (hkey : s.keyv = true) (hmin : minFrame ≤ s.frameLen)
    (hin : s.frameLen ≤ s.dbufBytes) (hslot : s.peek 16 16 = s.imageDigest.toList) :
    ∃ t, Completes .fdec s t ∧ t.body = s.peek bodyOffset (s.frameLen - bodyOffset) ∧
      t.digest.toList = t.peek 16 16 ∧ s.KeepsSession t := by
  have hexec := exec_fdec (s.accept (encode .fdec)) hkey hmin hin
  replace hexec := hexec.trans (if_neg (not_not_intro hslot.symm))
  refine ⟨_, ⟨hexec, rfl, rfl⟩, ?_, hslot.symm, ⟨rfl, rfl, rfl, rfl⟩⟩
  have hsize := s.dbufBytes_bounds
  exact State.setBlen_body _ _ (by change s.frameLen - bodyOffset < 2 ^ 32; omega)

/-- FENC and FDEC in turn: FDEC exposes the body FENC took (R194). -/
theorem completes_fenc_fdec (hkey : s.keyv = true) (hne : s.bodyLen ≠ 0)
    (hin : bodyOffset + s.bodyLen ≤ s.dbufBytes) (hfit : bodyOffset + s.bodyLen ≤ maxFrame) :
    ∃ t u, Completes .fenc s t ∧ Completes .fdec t u ∧ u.body = s.body ∧
      u.digest.toList = u.peek 16 16 ∧ s.KeepsSession u := by
  obtain ⟨t, hfenc, hlen, hslot, hbody, hkept⟩ := completes_fenc s hkey hin hfit
  obtain ⟨u, hfdec, hback, hdigest, hkept'⟩ := completes_fdec t (by rw [hkept.keyv, hkey])
    (by simp only [minFrame, hlen, bodyOffset]; omega) (by rw [hlen, hkept.dbufBytes]; exact hin) hslot
  rw [hlen, Nat.add_sub_cancel_left, hbody] at hback
  exact ⟨t, u, hfenc, hfdec, hback, hdigest, hkept.trans hkept'⟩

/-- ENC, FENC, FDEC and DEC in turn: FENC and FDEC keep the session key and hand the ciphertext on, so DEC
gives back what ENC took (R147, R194). -/
theorem completes_enc_fenc_fdec_dec (hkey : s.keyv = true) (hne : s.bodyLen ≠ 0)
    (hin : bodyOffset + s.bodyLen ≤ s.dbufBytes) (hfit : bodyOffset + s.bodyLen ≤ maxFrame)
    (halign : s.bodyLen % blockBytes = 0) :
    ∃ t u v w, Completes .enc s t ∧ Completes .fenc t u ∧ Completes .fdec u v ∧ Completes .dec v w ∧
      w.body = s.body ∧ w.dbufBytes = s.dbufBytes := by
  have hblocks : s.body.length % 16 = 0 := s.body_length ▸ halign
  obtain ⟨t, henc, hcipher, hkept⟩ := completes_enc s hkey hin halign
  have hlen : t.bodyLen = s.bodyLen := by
    rw [← t.body_length, hcipher, cbcEnc_length _ _ _ hblocks, s.body_length]
  obtain ⟨u, v, hfenc, hfdec, hsame, -, hkept'⟩ := completes_fenc_fdec t (by rw [hkept.keyv, hkey])
    (by rwa [hlen]) (by rwa [hkept.dbufBytes, hlen]) (by rwa [hlen])
  replace hkept := hkept.trans hkept'
  have hlen' : v.bodyLen = s.bodyLen := by rw [← v.body_length, hsame, t.body_length, hlen]
  obtain ⟨w, hdec, hback, hkept''⟩ := completes_dec v (by rw [hkept.keyv, hkey])
    (by rwa [hkept.dbufBytes, hlen']) (by rwa [hlen'])
  refine ⟨t, u, v, w, henc, hfenc, hfdec, hdec, ?_, (hkept.trans hkept'').dbufBytes⟩
  rw [hback, hkept.key, hkept.iv, hsame, hcipher, cbcDec_cbcEnc _ _ _ hblocks]

/-- FENC runs to its `complete()` only past its three checks (R192). -/
theorem runFenc_checks (t : State) (h : runFenc s = .complete t) :
    s.keyv = true ∧ bodyOffset + s.bodyLen ≤ s.dbufBytes ∧ bodyOffset + s.bodyLen ≤ maxFrame := by
  have hsize := s.dbufBytes_bounds
  rw [runFenc] at h
  split_ifs at h with hkey hend hfit
  simp only [State.bodyPastEnd, decide_eq_true_eq, bodyOffset] at hend hfit ⊢
  exact ⟨by simpa using hkey, by omega, by omega⟩

/-- A command that ends with ERR = 0 ran to its `complete()` (R45). -/
theorem CmdEnd.eq_complete_of_finish (r : CmdEnd) (t : State) (h : r.finish = .next t)
    (herr : t.err = false) : ∃ s, r = .complete s := by
  obtain ⟨s, hr, -⟩ | ⟨c, op, s, -, rfl⟩ := r.finish_eq_next t h
  · exact ⟨s, hr⟩
  · cases herr

theorem Completes.fenc_checks {s t : State} (h : Completes .fenc s t) :
    s.keyv = true ∧ bodyOffset + s.bodyLen ≤ s.dbufBytes ∧ bodyOffset + s.bodyLen ≤ maxFrame := by
  obtain ⟨hexec, -, herr⟩ := h
  obtain ⟨t', hrun⟩ := (runFenc (s.accept (encode .fenc))).eq_complete_of_finish t hexec herr
  exact runFenc_checks (s.accept (encode .fenc)) t' hrun

theorem Completes.unique {i : Instr} {s t t' : State} (h : Completes i s t) (h' : Completes i s t') :
    t' = t := Host.Outcome.next.inj (h'.1.symm.trans h.1)

end Sys2Proof.Machine
end

section
/-! The statements of spec/42_frame.md on the round trip of a frame and on a changed byte. -/

namespace Sys2Proof.Machine

/-- Settles O31: a completed FENC passed its checks, and leaves a well-formed frame around the body; between
PAD and UNPAD, FENC and FDEC hand the encrypted body on to DEC. -/
theorem frameRoundTrip : Obligations.FrameRoundTrip := by
  constructor
  · intro s t hfenc hne
    obtain ⟨hkey, hin, hfit⟩ := hfenc.fenc_checks
    obtain ⟨t, u, hfenc', hfdec, hbody, hdigest, -⟩ :=
      completes_fenc_fdec s hkey (Nat.ne_of_gt hne) hin hfit
    obtain rfl := hfenc.unique hfenc'
    exact ⟨u, hfdec, s.blen_eq_of_body_eq u hbody, hbody, hdigest⟩
  · intro s hkey hne hin hfit
    obtain ⟨s1, hpad, hpadded, hkept⟩ := completes_pad s hne hin
    have hlen (t : State) (ht : t.body = withPadding s.body) :
        t.bodyLen = s.bodyLen + padLength s.bodyLen := by
      rw [← t.body_length, ht, withPadding_length, s.body_length]
    obtain ⟨hpos, -, hblocks⟩ := padLength_spec s.bodyLen
    rw [Nat.add_assoc] at hin hfit
    obtain ⟨s2, s3, s4, s5, henc, hfenc, hfdec, hdec, hback, hsize⟩ :=
      completes_enc_fenc_fdec_dec s1 (by rw [hkept.keyv, hkey]) (by rw [hlen s1 hpadded]; omega)
        (by rwa [hkept.dbufBytes, hlen s1 hpadded]) (by rwa [hlen s1 hpadded])
        (by rw [hlen s1 hpadded, hblocks])
    rw [hpadded] at hback
    obtain ⟨s6, hunpad, hbody⟩ := completes_unpad s5 (by rwa [hsize, hkept.dbufBytes, hlen s5 hback])
      (hback ▸ goodPadding_withPadding s.body)
    rw [hback, take_withPadding] at hbody
    exact ⟨s1, s2, s3, s4, s5, s6, hpad, henc, hfenc, hfdec, hdec, hunpad,
      s.blen_eq_of_body_eq s6 hbody, hbody⟩

/-- Settles O32: a changed slot no longer holds the digest, since the image leaves the slot out; a byte
elsewhere leaves the slot, and FDEC compares it with the digest of the changed image. -/
theorem tamperedFrameDetection : Obligations.TamperedFrameDetection := by
  intro s i b hkey herr hmin hin hwell hi hb
  have hiff := exec_fdec_eq_checksum_iff (s.poke i [b]) hkey herr hmin hin
  refine ⟨fun ⟨hlo, hhi⟩ => hiff.mpr ?_, fun hout => ?_⟩
  · have hslot := (s.wellFormedFrame_iff (Nat.le_of_succ_le hmin)).mp hwell
    have himage : (s.poke i [b]).imageDigest = s.imageDigest := by
      rw [State.imageDigest, State.peek_poke_disjoint _ _ _ 0 16 (.inl (by omega)),
        State.peek_poke_disjoint _ _ _ 32 _ (.inr (by simpa using hhi))]
      rfl
    rw [himage, ← hslot]
    exact (s.peek_poke_ne 16 16 i b hlo hhi hb).symm
  · rw [hiff, State.peek_poke_disjoint _ _ _ 16 16 (by simp; omega)]

end Sys2Proof.Machine
end

section
/-! Acceptance and the pseudocode of a command commute: no command reads CMD, BUSY, DONE, ERR or ERRINFO
(spec/10_state.md R45, spec/30_encoding.md R93). Each proof follows the checks, reads and writes of its
command in order. -/

namespace Sys2Proof.Machine

/-- A command's end with the word `w` accepted in the state it leaves. -/
def CmdEnd.accept (w : Word) : CmdEnd → CmdEnd
  | .complete s => .complete (s.accept w)
  | .raised code op s => .raised code op (s.accept w)
  | .fault f => .fault f

variable {w : Word} {s : State} {a n : Nat}

theorem CmdEnd.ite_accept {c : Prop} [Decidable c] {r r' q q' : CmdEnd} (hr : r' = r.accept w)
    (hq : q' = q.accept w) : (if c then r' else q') = (if c then r else q).accept w := by
  rw [hr, hq]
  exact (apply_ite _ _ _ _).symm

theorem State.memRead_accept {k k' : List Byte → CmdEnd} (hk : ∀ bs, k' bs = (k bs).accept w) :
    (s.accept w).memRead a n k' = (s.memRead a n k).accept w := CmdEnd.ite_accept (hk _) rfl

theorem State.memWrite_accept {bs : List Byte} {k k' : State → CmdEnd}
    (hk : ∀ t : State, k' (t.accept w) = (k t).accept w) :
    (s.accept w).memWrite a bs k' = (s.memWrite a bs k).accept w := CmdEnd.ite_accept (hk (s.poke a bs)) rfl

theorem CmdEnd.andThen_accept {r r' : CmdEnd} {k : State → CmdEnd} (hr : r' = r.accept w)
    (hk : ∀ t : State, k (t.accept w) = (k t).accept w) : r'.andThen k = (r.andThen k).accept w := by
  subst hr
  cases r with
  | complete t => exact hk t
  | raised c op t => rfl
  | fault f => rfl

open CmdEnd State

variable (w : Word) (s : State)

theorem runMd5_accept : runMd5 (s.accept w) = (runMd5 s).accept w :=
  ite_accept rfl (memRead_accept fun _ => rfl)

theorem runPad_accept : runPad (s.accept w) = (runPad s).accept w :=
  ite_accept rfl (ite_accept rfl (ite_accept rfl (memWrite_accept fun _ => rfl)))

theorem runUnpad_accept : runUnpad (s.accept w) = (runUnpad s).accept w :=
  ite_accept rfl (ite_accept rfl (memRead_accept fun _ => ite_accept rfl
    (memRead_accept fun _ => ite_accept rfl rfl)))

theorem runEnc_accept : runEnc (s.accept w) = (runEnc s).accept w :=
  ite_accept rfl (ite_accept rfl (ite_accept rfl (memRead_accept fun _ => memWrite_accept fun _ => rfl)))

theorem runDec_accept : runDec (s.accept w) = (runDec s).accept w :=
  ite_accept rfl (ite_accept rfl (ite_accept rfl (memRead_accept fun _ => memWrite_accept fun _ => rfl)))

theorem runFenc_accept : runFenc (s.accept w) = (runFenc s).accept w :=
  ite_accept rfl (ite_accept rfl (ite_accept rfl (memWrite_accept fun _ => memWrite_accept fun _ =>
    memWrite_accept fun _ => memWrite_accept fun _ => memWrite_accept fun _ => memWrite_accept fun _ =>
    memRead_accept fun _ => memWrite_accept fun _ => rfl)))

theorem runFdec_accept : runFdec (s.accept w) = (runFdec s).accept w :=
  ite_accept rfl (ite_accept rfl (ite_accept rfl (memRead_accept fun _ => memRead_accept fun _ =>
    memRead_accept fun _ => ite_accept rfl (ite_accept rfl rfl))))

theorem appendSentinel_accept (len : Nat) :
    appendSentinel (s.accept w) len = (appendSentinel s len).accept w :=
  ite_accept rfl (memWrite_accept fun _ => rfl)

theorem runSent_accept : runSent (s.accept w) = (runSent s).accept w :=
  ite_accept rfl (ite_accept (appendSentinel_accept w s _)
    (memRead_accept fun _ => ite_accept (appendSentinel_accept w s _) rfl))

theorem runStrip_accept : runStrip (s.accept w) = (runStrip s).accept w :=
  ite_accept rfl (ite_accept rfl (memRead_accept fun _ => ite_accept rfl rfl))

theorem runSeal_accept : runSeal (s.accept w) = (runSeal s).accept w :=
  ite_accept rfl (andThen_accept (andThen_accept (andThen_accept (runSent_accept w s)
    (runPad_accept w)) (runEnc_accept w)) (runFenc_accept w))

theorem runOpen_accept : runOpen (s.accept w) = (runOpen s).accept w :=
  ite_accept rfl (andThen_accept (andThen_accept (andThen_accept (runFdec_accept w s)
    (runDec_accept w)) (runUnpad_accept w)) (runStrip_accept w))

end Sys2Proof.Machine
end

section
/-! A command completes alike when the host issues it and when a composite performs it (spec/43_sequence.md
R223, R224). -/

namespace Sys2Proof.Machine

/-- The pseudocode of each command, without the completion part of the engine step. -/
def runOf : Instr → State → CmdEnd
  | .nop => .complete
  | .md5 => runMd5
  | .derive => runDerive
  | .pad => runPad
  | .unpad => runUnpad
  | .enc => runEnc
  | .dec => runDec
  | .fenc => runFenc
  | .fdec => runFdec
  | .sent => runSent
  | .strip => runStrip
  | .sealFrame => runSeal
  | .openFrame => runOpen

theorem exec_eq_finish_runOf (i : Instr) (s : State) : exec i s = (runOf i s).finish := by
  cases i <;> rfl

theorem runOf_accept (i : Instr) (w : Word) (s : State) : runOf i (s.accept w) = (runOf i s).accept w := by
  cases i with
  | nop => rfl
  | md5 => exact runMd5_accept w s
  | derive => rfl
  | pad => exact runPad_accept w s
  | unpad => exact runUnpad_accept w s
  | enc => exact runEnc_accept w s
  | dec => exact runDec_accept w s
  | fenc => exact runFenc_accept w s
  | fdec => exact runFdec_accept w s
  | sent => exact runSent_accept w s
  | strip => exact runStrip_accept w s
  | sealFrame => exact runSeal_accept w s
  | openFrame => exact runOpen_accept w s

/-- A command completes exactly when its pseudocode runs to `complete()`, in the state before acceptance. -/
theorem completes_iff_runOf (i : Instr) (s t : State) :
    Completes i s t ↔ ∃ u, runOf i s = .complete u ∧ t = (u.accept (encode i)).finishDone := by
  rw [Completes, exec_eq_finish_runOf, runOf_accept]
  constructor
  · rintro ⟨hfinish, -, herr⟩
    cases hrun : runOf i s with
    | complete u => rw [hrun] at hfinish; cases hfinish; exact ⟨u, rfl, rfl⟩
    | raised c op u => rw [hrun] at hfinish; cases hfinish; cases herr
    | fault f => rw [hrun] at hfinish; cases hfinish
  · rintro ⟨u, hrun, rfl⟩
    rw [hrun]
    exact ⟨rfl, rfl, rfl⟩

/-- The two states differ at most in what acceptance writes: CMD, BUSY, DONE, ERR and ERRINFO. -/
def State.AcceptsAs (s t : State) : Prop := ∀ w, s.accept w = t.accept w

theorem State.AcceptsAs.symm {s t : State} (h : s.AcceptsAs t) : t.AcceptsAs s := fun w => (h w).symm

theorem State.AcceptsAs.body_eq {s t : State} (h : s.AcceptsAs t) : s.body = t.body := by
  rw [← s.accept_body 0, h, t.accept_body]

theorem State.finishDone_accept_acceptsAs (s : State) (w : Word) :
    ((s.accept w).finishDone).AcceptsAs s := fun _ => rfl

theorem Completes.of_acceptsAs {i : Instr} {s s' t : State} (hc : Completes i s t) (h : s.AcceptsAs s') :
    Completes i s' t := by
  rwa [Completes, ← h]

/-- The pseudocode runs to `complete()` and leaves `t`, but for what acceptance writes. -/
def CmdEnd.Leaves (r : CmdEnd) (t : State) : Prop := ∃ u, r = .complete u ∧ u.AcceptsAs t

theorem Completes.leaves {i : Instr} {s t : State} (h : Completes i s t) : (runOf i s).Leaves t := by
  obtain ⟨u, hrun, rfl⟩ := (completes_iff_runOf i s t).mp h
  exact ⟨u, hrun, (State.finishDone_accept_acceptsAs u _).symm⟩

theorem CmdEnd.Leaves.completes {i : Instr} {s t : State} (h : (runOf i s).Leaves t) :
    ∃ t', Completes i s t' ∧ t'.AcceptsAs t := by
  obtain ⟨u, hrun, hu⟩ := h
  exact ⟨_, (completes_iff_runOf i s _).mpr ⟨u, hrun, rfl⟩, hu⟩

/-- `perform` of a part: it goes on from what the parts before it left as it does when issued on its own. -/
theorem CmdEnd.Leaves.andThen {r : CmdEnd} {i : Instr} {s t : State} (h : r.Leaves s)
    (hc : Completes i s t) : (r.andThen (runOf i)).Leaves t := by
  obtain ⟨u, rfl, hu⟩ := h
  exact (hc.of_acceptsAs hu.symm).leaves

/-- SEAL leaves what SENT, PAD, ENC and FENC in turn leave (R223). -/
theorem completes_sealFrame {s s1 s2 s3 s4 : State} (hkey : s.keyv = true) (hsent : Completes .sent s s1)
    (hpad : Completes .pad s1 s2) (henc : Completes .enc s2 s3) (hfenc : Completes .fenc s3 s4) :
    ∃ t, Completes .sealFrame s t ∧ t.AcceptsAs s4 := by
  apply CmdEnd.Leaves.completes
  rw [show runOf .sealFrame s = (((runSent s).andThen runPad).andThen runEnc).andThen runFenc from
    if_neg (by simp [hkey])]
  exact ((hsent.leaves.andThen hpad).andThen henc).andThen hfenc

theorem Completes.keyv_of_fdec {s t : State} (h : Completes .fdec s t) : s.keyv = true := by
  obtain ⟨u, hrun, -⟩ := (completes_iff_runOf .fdec s t).mp h
  by_contra hkey
  simp [runOf, runFdec, eq_false_of_ne_true hkey] at hrun

/-- OPEN leaves what FDEC, DEC, UNPAD and STRIP in turn leave (R224). -/
theorem completes_openFrame {s s1 s2 s3 s4 : State} (hfdec : Completes .fdec s s1)
    (hdec : Completes .dec s1 s2) (hunpad : Completes .unpad s2 s3) (hstrip : Completes .strip s3 s4) :
    ∃ t, Completes .openFrame s t ∧ t.AcceptsAs s4 := by
  apply CmdEnd.Leaves.completes
  rw [show runOf .openFrame s = (((runFdec s).andThen runDec).andThen runUnpad).andThen runStrip from
    if_neg (by simp [hfdec.keyv_of_fdec])]
  exact ((hfdec.leaves.andThen hdec).andThen hunpad).andThen hstrip

end Sys2Proof.Machine
end

section
/-! What SENT and STRIP make of the body (spec/43_sequence.md R221, R222). -/

namespace Sys2Proof.Machine

theorem withSentinel_of_absent {p : List Byte} (h : p = [] ∨ p.getLastD 0x00 ≠ 0x00) :
    withSentinel p = p ++ [0x00] := if_pos h

theorem withSentinel_of_present {p : List Byte} (hne : p ≠ []) (hlast : p.getLastD 0x00 = 0x00) :
    withSentinel p = p :=
  if_neg (not_or.mpr ⟨hne, not_not_intro hlast⟩)

theorem withSentinel_ne_nil (p : List Byte) : withSentinel p ≠ [] := by
  rw [withSentinel]
  split_ifs with h
  · simp
  · exact fun hnil => h (.inl hnil)

theorem withoutSentinel_append (p : List Byte) : withoutSentinel (p ++ [0x00]) = p := by
  rw [withoutSentinel, if_pos ⟨by simp, List.getLastD_concat⟩, List.dropLast_concat]

theorem withoutSentinel_of_present {p : List Byte} (hne : p ≠ []) (hlast : p.getLastD 0x00 = 0x00) :
    withoutSentinel p = p.dropLast := if_pos ⟨hne, hlast⟩

variable (s : State)

theorem State.body_eq_nil_iff : s.body = [] ↔ s.bodyLen = 0 := by
  rw [← List.length_eq_zero_iff, s.body_length]

/-- The last byte of a non-empty body, as SENT and STRIP read it. -/
theorem State.memRead_last (hne : s.bodyLen ≠ 0) (hin : bodyOffset + s.bodyLen ≤ s.dbufBytes)
    (k : Byte → CmdEnd) : s.memRead (bodyOffset + s.bodyLen - 1) 1 (fun last => k (last.getD 0 0)) =
      k (s.body.getLastD 0x00) := by
  rw [s.memRead_of_le _ _ _ (by omega), BitVec.eq_of_toNat_eq (s.peek_last hne)]

theorem runSent_of_absent (h : s.body = [] ∨ s.body.getLastD 0x00 ≠ 0x00)
    (hfit : bodyOffset + s.bodyLen + 1 ≤ s.dbufBytes) :
    runSent s = .complete ((s.poke (bodyOffset + s.bodyLen) [0x00]).setBlen (s.bodyLen + 1)) := by
  have hend := s.bodyPastEnd_eq_false (by omega)
  have happend : appendSentinel s s.bodyLen =
      .complete ((s.poke (bodyOffset + s.bodyLen) [0x00]).setBlen (s.bodyLen + 1)) := by
    rw [appendSentinel, if_neg (Nat.not_lt.mpr hfit), s.memWrite_of_le _ _ _ hfit]
  simp only [runSent, hend, Bool.false_eq_true, if_false, happend]
  split_ifs with hzero
  · rfl
  · rw [s.memRead_last hzero (by omega) (fun b => if b ≠ 0x00 then _ else .complete s)]
    exact if_pos (h.resolve_left (mt s.body_eq_nil_iff.mp hzero))

theorem runSent_of_present (hne : s.body ≠ []) (hlast : s.body.getLastD 0x00 = 0x00)
    (hin : bodyOffset + s.bodyLen ≤ s.dbufBytes) : runSent s = .complete s := by
  have hend := s.bodyPastEnd_eq_false hin
  have hzero : s.bodyLen ≠ 0 := mt s.body_eq_nil_iff.mpr hne
  simp only [runSent, hend, Bool.false_eq_true, if_false, hzero]
  rw [s.memRead_last hzero hin (fun b => if b ≠ 0x00 then _ else .complete s)]
  exact if_neg (not_not_intro hlast)

theorem runStrip_eq (hin : bodyOffset + s.bodyLen ≤ s.dbufBytes) :
    runStrip s = .complete (if s.body ≠ [] ∧ s.body.getLastD 0x00 = 0x00 then s.setBlen (s.bodyLen - 1)
      else s) := by
  have hend := s.bodyPastEnd_eq_false hin
  simp only [runStrip, hend, Bool.false_eq_true, if_false, ne_eq, s.body_eq_nil_iff]
  by_cases hzero : s.bodyLen = 0
  · simp [hzero]
  · rw [if_neg hzero, s.memRead_last hzero hin
      (fun b => if b = 0x00 then .complete (s.setBlen (s.bodyLen - 1)) else .complete s)]
    simp only [hzero, not_false_eq_true, true_and]
    exact (apply_ite _ _ _ _).symm

theorem completes_sent (hfit : bodyOffset + (withSentinel s.body).length ≤ s.dbufBytes) :
    ∃ t, Completes .sent s t ∧ t.body = withSentinel s.body ∧ s.KeepsSession t := by
  by_cases h : s.body = [] ∨ s.body.getLastD 0x00 ≠ 0x00
  · rw [withSentinel_of_absent h] at hfit ⊢
    rw [List.length_append, s.body_length] at hfit
    have hrun := runSent_of_absent s h hfit
    refine ⟨_, (completes_iff_runOf .sent s _).mpr ⟨_, hrun, rfl⟩, ?_, ⟨rfl, rfl, rfl, rfl⟩⟩
    have hsize := s.dbufBytes_bounds
    rw [State.finishDone_body, State.accept_body, State.setBlen_body _ _ (by omega), State.peek_append,
      State.peek_poke_disjoint _ _ _ _ _ (.inl le_rfl)]
    exact congrArg (s.body ++ ·) (s.peek_poke_same _ [0x00])
  · obtain ⟨hne, hlast⟩ := not_or.mp h
    rw [withSentinel_of_present hne (not_not.mp hlast)] at hfit ⊢
    rw [s.body_length] at hfit
    have hrun := runSent_of_present s hne (not_not.mp hlast) hfit
    exact ⟨_, (completes_iff_runOf .sent s _).mpr ⟨_, hrun, rfl⟩, rfl, ⟨rfl, rfl, rfl, rfl⟩⟩

theorem completes_strip (hin : bodyOffset + s.bodyLen ≤ s.dbufBytes) :
    ∃ t, Completes .strip s t ∧ t.body = withoutSentinel s.body := by
  refine ⟨_, (completes_iff_runOf .strip s _).mpr ⟨_, runStrip_eq s hin, rfl⟩, ?_⟩
  rw [State.finishDone_body, State.accept_body, withoutSentinel]
  split_ifs with h
  · have hsize := s.dbufBytes_bounds
    rw [State.setBlen_body _ _ (by omega), List.dropLast_eq_take, s.body_length, State.body,
      s.peek_take _ _ _ (Nat.sub_le _ _)]
  · rfl

/-- UNPAD runs to its `complete()` only with the body inside the buffer, and writes nothing but a BLEN no
greater than the old one (R150). -/
theorem runUnpad_eq_complete (t : State) (h : runUnpad s = .complete t) :
    bodyOffset + s.bodyLen ≤ s.dbufBytes ∧ ∃ n, t = s.setBlen (s.bodyLen - n) := by
  have hsize := s.dbufBytes_bounds
  simp only [runUnpad, State.memRead] at h
  split_ifs at h with hend
  cases h
  simp only [State.bodyPastEnd, decide_eq_true_eq, bodyOffset] at hend ⊢
  exact ⟨by omega, _, rfl⟩

theorem Completes.unpad_body_inside {s t : State} (h : Completes .unpad s t) :
    bodyOffset + t.bodyLen ≤ t.dbufBytes := by
  obtain ⟨u, hrun, rfl⟩ := (completes_iff_runOf .unpad s t).mp h
  obtain ⟨hin, n, rfl⟩ := runUnpad_eq_complete s u hrun
  have hle : (s.bodyLen - n) % 2 ^ 32 ≤ s.bodyLen := (Nat.mod_le _ _).trans (Nat.sub_le _ _)
  change bodyOffset + (s.bodyLen - n) % 2 ^ 32 ≤ s.dbufBytes
  omega

end Sys2Proof.Machine
end

section
/-! The statement of spec/43_sequence.md on the round trip of a payload. -/

namespace Sys2Proof.Machine

/-- SEAL and OPEN in turn give back the payload without the sentinel that SENT appended or found (R225). -/
theorem completes_seal_open (s : State) (hkey : s.keyv = true)
    (hin : bodyOffset + (withPadding (withSentinel s.body)).length ≤ s.dbufBytes)
    (hfit : bodyOffset + (withPadding (withSentinel s.body)).length ≤ maxFrame) :
    ∃ t u, Completes .sealFrame s t ∧ Completes .openFrame t u ∧
      u.body = withoutSentinel (withSentinel s.body) := by
  rw [withPadding_length] at hin hfit
  obtain ⟨s1, hsent, hbody, hkept⟩ := completes_sent s (by omega)
  rw [← hbody, s1.body_length, ← Nat.add_assoc] at hin hfit
  have hne : s1.bodyLen ≠ 0 := mt s1.body_eq_nil_iff.mpr (hbody ▸ withSentinel_ne_nil s.body)
  obtain ⟨s2, s3, s4, s5, s6, s7, hpad, henc, hfenc, hfdec, hdec, hunpad, -, hback⟩ :=
    frameRoundTrip.2 s1 (by rw [hkept.keyv, hkey]) hne (by rw [hkept.dbufBytes]; exact hin) hfit
  obtain ⟨s8, hstrip, hstripped⟩ := completes_strip s7 hunpad.unpad_body_inside
  obtain ⟨t, hseal, hsealed⟩ := completes_sealFrame hkey hsent hpad henc hfenc
  obtain ⟨u, hopen, hopened⟩ :=
    completes_openFrame (hfdec.of_acceptsAs hsealed.symm) hdec hunpad hstrip
  exact ⟨t, u, hseal, hopen, by rw [hopened.body_eq, hstripped, hback, hbody]⟩

/-- Settles O42: STRIP removes the sentinel SENT appended; of a payload that ends in 0x00 it removes that
byte, which SENT took for the sentinel. -/
theorem sealOpenRoundTrip : Obligations.SealOpenRoundTrip := by
  intro s hkey hin hfit
  obtain ⟨t, u, hseal, hopen, hbody⟩ := completes_seal_open s hkey hin hfit
  refine ⟨t, u, hseal, hopen, fun habsent => ?_, fun ⟨hne, hlast⟩ => ?_⟩
  · rw [withSentinel_of_absent (habsent.imp_left s.body_eq_nil_iff.mpr), withoutSentinel_append] at hbody
    exact ⟨s.blen_eq_of_body_eq u hbody, hbody⟩
  · have hnil := mt s.body_eq_nil_iff.mp hne
    rw [withSentinel_of_present hnil hlast, withoutSentinel_of_present hnil hlast] at hbody
    have hlen := congrArg List.length hbody
    rw [List.length_dropLast, u.body_length, s.body_length] at hlen
    exact ⟨hlen, hbody⟩

end Sys2Proof.Machine
end

section
/-! How the pseudocode of a primitive can end (spec/60_exceptions.md R256): its checks precede its writes, so an
error leaves the start state; and its checks keep every access inside DBUF, so there is no fault. -/

namespace Sys2Proof.Machine

/-- A primitive of the opcode `op` that starts in `s` completes without writing ERR, or raises a named error
from `s` itself. -/
inductive CmdEnd.EndsFrom (s : State) (op : Byte) : CmdEnd → Prop
  | complete {t : State} (herr : t.err = s.err) : EndsFrom s op (.complete t)
  | raised {c : ErrCode} (hc : c ≠ .none) : EndsFrom s op (.raised c op s)

/-- Past the range check on BLEN, the body is inside the buffer (R30). -/
theorem State.body_inside_of_not_pastEnd {s : State} (h : ¬s.bodyPastEnd = true) :
    bodyOffset + s.bodyLen ≤ s.dbufBytes := by
  have hsize := s.dbufBytes_bounds
  simp only [State.bodyPastEnd, decide_eq_true_eq, bodyOffset] at h ⊢
  omega

namespace CmdEnd.EndsFrom

variable {s u : State} {op : Byte} {r q : CmdEnd} {p : Prop} [Decidable p] {a n : Nat}

/-- A branch. -/
theorem branch (hr : p → r.EndsFrom s op) (hq : ¬p → q.EndsFrom s op) :
    (if p then r else q).EndsFrom s op := by
  split_ifs with h
  · exact hr h
  · exact hq h

/-- A check that stands before every write. -/
theorem check {c : ErrCode} (hq : ¬p → q.EndsFrom s op) (hc : c ≠ .none := by decide) :
    (if p then .raised c op s else q).EndsFrom s op :=
  branch (fun _ => raised hc) hq

theorem memRead {k : List Byte → CmdEnd} (hin : a + n ≤ u.dbufBytes)
    (hk : (k (u.peek a n)).EndsFrom s op) : (u.memRead a n k).EndsFrom s op := by
  rwa [u.memRead_of_le _ _ _ hin]

theorem memWrite {bs : List Byte} {k : State → CmdEnd} (hin : a + bs.length ≤ u.dbufBytes)
    (hk : (k (u.poke a bs)).EndsFrom s op) : (u.memWrite a bs k).EndsFrom s op := by
  rwa [u.memWrite_of_le _ _ _ hin]

/-- ENC and DEC past their checks: the body is replaced by another one of its length. -/
theorem rewriteBody {f : List Byte → List Byte} (hend : ¬s.bodyPastEnd = true)
    (halign : s.bodyLen % blockBytes = 0) (hlen : ∀ b, b.length % 16 = 0 → (f b).length = b.length) :
    (s.memRead bodyOffset s.bodyLen fun b => s.memWrite bodyOffset (f b) fun t => .complete t).EndsFrom
      s op := by
  have hbody := hlen s.body (s.body_length ▸ halign)
  rw [s.memRead_memWrite_body f (State.body_inside_of_not_pastEnd hend) (hbody.trans s.body_length)]
  exact complete rfl

/-- A primitive that ends with ERR newly set wrote nothing but the completion in error (R256). -/
theorem failed_of_finish {t : State} (h : r.EndsFrom s op) (herr : s.err = false)
    (hfinish : r.finish = .next t) (hset : t.err = true) : ∃ c, c ≠ .none ∧ t = s.failed c op := by
  cases h with
  | complete hkept =>
    cases hfinish
    cases (hkept.trans herr).symm.trans hset
  | raised hc =>
    cases hfinish
    exact ⟨_, hc, rfl⟩

end CmdEnd.EndsFrom

open CmdEnd.EndsFrom

variable (s : State)

theorem runMd5_endsFrom : (runMd5 s).EndsFrom s 0x01 := by
  refine check fun hend => memRead ?_ (complete rfl)
  simpa [State.hashPastEnd] using hend

theorem runPad_endsFrom : (runPad s).EndsFrom s 0x11 := by
  refine check fun _ => check fun _ => check fun hfit => memWrite ?_ (complete rfl)
  rw [padBytes_length]
  exact Nat.not_lt.mp hfit

theorem runUnpad_endsFrom : (runUnpad s).EndsFrom s 0x12 := by
  refine check fun hend => check fun hne => memRead ?_ (check fun hpad => memRead ?_
    (check fun _ => complete rfl))
  all_goals
    have hin := State.body_inside_of_not_pastEnd hend
    omega

theorem runEnc_endsFrom : (runEnc s).EndsFrom s 0x13 :=
  check fun _ => check fun hend => check fun halign =>
    rewriteBody hend (not_not.mp halign) (cbcEnc_length s.key s.iv)

theorem runDec_endsFrom : (runDec s).EndsFrom s 0x14 :=
  check fun _ => check fun hend => check fun halign =>
    rewriteBody hend (not_not.mp halign) (cbcDec_length s.key s.iv)

/-- The header fits below any body, and the smallest buffer has 64 bytes. -/
theorem runFenc_endsFrom : (runFenc s).EndsFrom s 0x20 := by
  refine check fun _ => check fun hend => check fun _ => ?_
  have hin := State.body_inside_of_not_pastEnd hend
  have hsize := s.dbufBytes_bounds
  iterate 6 refine memWrite (by simp [slotOffset]; omega) ?_
  refine memRead (by simpa using hin) (memWrite (by simp [slotOffset]; omega) ?_)
  exact complete (by simp)

theorem runFdec_endsFrom : (runFdec s).EndsFrom s 0x21 := by
  refine check fun _ => check fun hend => check fun hmin => ?_
  simp only [State.framePastEnd, decide_eq_true_eq, minFrame] at hend hmin
  refine memRead ?_ (memRead ?_ (memRead ?_ (check fun _ => check fun _ => complete (by simp))))
  all_goals
    simp only [slotOffset, bodyOffset]
    omega

/-- SENT appends in a branch of its own, with its own check (R221). -/
theorem appendSentinel_endsFrom (len : Nat) : (appendSentinel s len).EndsFrom s 0x30 :=
  check fun hfit => memWrite (Nat.not_lt.mp hfit) (complete rfl)

theorem runSent_endsFrom : (runSent s).EndsFrom s 0x30 := by
  refine check fun hend => branch (fun _ => appendSentinel_endsFrom s _) fun _ => memRead ?_
    (branch (fun _ => appendSentinel_endsFrom s _) fun _ => complete rfl)
  have hin := State.body_inside_of_not_pastEnd hend
  omega

theorem runStrip_endsFrom : (runStrip s).EndsFrom s 0x31 := by
  refine check fun hend => branch (fun _ => complete rfl) fun _ => memRead ?_
    (branch (fun _ => complete rfl) fun _ => complete rfl)
  have hin := State.body_inside_of_not_pastEnd hend
  omega

/-- Every command but the two composites is a primitive. -/
theorem runOf_endsFrom {i : Instr} (hseal : i ≠ .sealFrame) (hopen : i ≠ .openFrame) :
    (runOf i s).EndsFrom s (opcodeOf i) := by
  cases i with
  | nop => exact complete rfl
  | md5 => exact runMd5_endsFrom s
  | derive => exact complete rfl
  | pad => exact runPad_endsFrom s
  | unpad => exact runUnpad_endsFrom s
  | enc => exact runEnc_endsFrom s
  | dec => exact runDec_endsFrom s
  | fenc => exact runFenc_endsFrom s
  | fdec => exact runFdec_endsFrom s
  | sent => exact runSent_endsFrom s
  | strip => exact runStrip_endsFrom s
  | sealFrame => exact absurd rfl hseal
  | openFrame => exact absurd rfl hopen

end Sys2Proof.Machine
end

section
/-! `perform` of the parts of a composite, one after the other (spec/43_sequence.md R223, R224;
spec/60_exceptions.md R257). -/

namespace Sys2Proof.Machine

theorem CmdEnd.andThen_assoc (r : CmdEnd) (f g : State → CmdEnd) :
    (r.andThen f).andThen g = r.andThen fun s => (f s).andThen g := by
  cases r <;> rfl

theorem CmdEnd.andThen_complete_right (r : CmdEnd) : r.andThen .complete = r := by
  cases r <;> rfl

/-- A part of the composite that ends in `whole`: it raises an error from its start state and so ends the
composite, or it completes and the composite goes on with `k`. -/
theorem CmdEnd.EndsFrom.perform {s : State} {op : Byte} {r : CmdEnd} {k : State → CmdEnd}
    {whole : Host.Outcome State Fault Refusal} {rest : State → Prop} (h : r.EndsFrom s op)
    (hwhole : whole = (r.andThen k).finish) (hrest : ∀ t, whole = (k t).finish → rest t) :
    (∃ c, r = .raised c op s ∧ whole = .next (s.failed c op)) ∨ ∃ t, r = .complete t ∧ rest t := by
  cases h with
  | complete => exact .inr ⟨_, rfl, hrest _ hwhole⟩
  | raised => exact .inl ⟨_, rfl, hwhole⟩

variable {s : State}

theorem exec_sealFrame_of_noKey (h : s.keyv = false) :
    exec .sealFrame s = .next (s.failed .noKey 0x40) := by
  rw [exec_eq_finish_runOf, runOf, runSeal, h]
  rfl

theorem exec_openFrame_of_noKey (h : s.keyv = false) :
    exec .openFrame s = .next (s.failed .noKey 0x41) := by
  rw [exec_eq_finish_runOf, runOf, runOpen, h]
  rfl

theorem exec_sealFrame_of_keyv (h : s.keyv = true) :
    exec .sealFrame s = ((runSent s).andThen fun s1 => (runPad s1).andThen fun s2 =>
      (runEnc s2).andThen fun s3 => (runFenc s3).andThen .complete).finish := by
  rw [exec_eq_finish_runOf, runOf, runSeal, h]
  simp only [CmdEnd.andThen_assoc, CmdEnd.andThen_complete_right]
  rfl

theorem exec_openFrame_of_keyv (h : s.keyv = true) :
    exec .openFrame s = ((runFdec s).andThen fun s1 => (runDec s1).andThen fun s2 =>
      (runUnpad s2).andThen fun s3 => (runStrip s3).andThen .complete).finish := by
  rw [exec_eq_finish_runOf, runOf, runOpen, h]
  simp only [CmdEnd.andThen_assoc, CmdEnd.andThen_complete_right]
  rfl

end Sys2Proof.Machine
end

section
/-! The statements of spec/60_exceptions.md on a failed primitive and on a composite with a failing part. -/

namespace Sys2Proof.Machine

/-- Settles O10: a primitive that completes leaves ERR at 0, and one that raises does so from its start
state. -/
theorem failedPrimitiveWritesNothing : Obligations.FailedPrimitiveWritesNothing := by
  intro i s t hseal hopen herr hexec hset
  rw [exec_eq_finish_runOf] at hexec
  obtain ⟨c, hc, ht⟩ := (runOf_endsFrom s hseal hopen).failed_of_finish herr hexec hset
  exact ⟨c, opcodeOf i, hc, ht⟩

/-- Settles O41: each part either raises from the state the parts before it left, and so ends the composite,
or completes and hands its state to the next part. -/
theorem compositesStopAtTheFailingPart : Obligations.CompositesStopAtTheFailingPart := by
  refine fun s => ⟨fun hkey => ⟨exec_sealFrame_of_noKey hkey, exec_openFrame_of_noKey hkey⟩,
    fun hkey => ?_, fun hkey => ?_⟩
  · exact (runSent_endsFrom s).perform (exec_sealFrame_of_keyv hkey) fun s1 h1 =>
      (runPad_endsFrom s1).perform h1 fun s2 h2 =>
      (runEnc_endsFrom s2).perform h2 fun s3 h3 =>
      (runFenc_endsFrom s3).perform h3 fun _ h4 => h4
  · exact (runFdec_endsFrom s).perform (exec_openFrame_of_keyv hkey) fun s1 h1 =>
      (runDec_endsFrom s1).perform h1 fun s2 h2 =>
      (runUnpad_endsFrom s2).perform h2 fun s3 h3 =>
      (runStrip_endsFrom s3).perform h3 fun _ h4 => h4

end Sys2Proof.Machine
end

section
/-! Reset: each register at its reset value (spec/70_reset_and_hazards.md R290 to R292). -/

namespace Sys2Proof.Machine

variable (s : State)

theorem State.hardReset_irq : s.hardReset.irq = false := s.hardReset.irq_of_ie_clear s.hardReset_ie

theorem State.hardReset_statusWord : s.hardReset.statusWord = 0 := by
  simp only [State.statusWord, State.hardReset_busy, State.hardReset_done, State.hardReset_err,
    State.hardReset_keyv, State.hardReset_ovr, State.hardReset_irq]
  decide

theorem State.hardReset_errinfoWord : s.hardReset.errinfoWord = 0 := by
  simp only [State.errinfoWord, State.hardReset_errOp, State.hardReset_errCode]
  decide

theorem State.hardReset_opReg (r : OpReg) : s.hardReset.opReg r = 0 := by
  cases r <;> rfl

/-- SRST = 1 resets in every state, busy or not (R26, R290). -/
theorem applyAccess_write_ctrl_reset (v : Word) (h : v.getLsbD 1 = true) :
    applyAccess (.write .w32 0x004 v) s = s.hardReset := by
  rw [applyAccess_write_ctrl, s.writeCtrl_reset v h]

theorem answerOf_read_id : answerOf (.read .w32 0x000) s = .data idValue :=
  answerOf_read s .w32 0x000 (permitted_control s 0x000 rfl (by decide))

/-- With no command pending the engine's turn leaves the state (R292). -/
theorem engineTurn_of_idle (h : s.busy = false) : engineTurn s = .next s := if_neg (by simp [h])

end Sys2Proof.Machine
end

section
/-! KEYV is set by DERIVE alone (spec/10_state.md R36, spec/41_cipher.md R148). -/

namespace Sys2Proof.Machine

/-- An offset of the TOKEN region (R24). -/
theorem regionOf_token (off : Nat) (hlo : 0x40 ≤ off) (hhi : off < 0x50) :
    regionOf off = .token (off - 0x40) := by
  unfold regionOf
  rw [if_neg (by omega), if_pos hhi]

/-- Only a permitted write is answered as written (R66). -/
theorem permitted_of_written {s : State} {w : Width} {off : Nat} {v : Word}
    (h : answerOf (.write w off v) s = .written) : permitted s w off = true := by
  cases hperm : permitted s w off with
  | true => rfl
  | false =>
    rw [(answerOf_write_eq_busError_iff s w off v).mpr hperm] at h
    cases h

/-- The key check in front of a keyed command fails while KEYV = 0 (spec/60_exceptions.md R251). -/
theorem finish_of_noKey {s : State} (h : s.keyv = false) (op : Byte) (r : CmdEnd) :
    (if !s.keyv then .raised .noKey op s else r : CmdEnd).finish = .next (s.failed .noKey op) := by
  rw [h]
  rfl

/-- A write of the port has no way to set KEYV: CTRL can reset it, TOKEN clears it, and no other region
touches it. -/
theorem writeRegion_keyv_clear {s : State} (w : Width) (v : Word) (r : Region) (h : s.keyv = false) :
    (writeRegion s w v r).keyv = false := by
  cases r with
  | ctrl =>
    show (s.writeCtrl v).keyv = false
    cases hsrst : v.getLsbD 1 with
    | true => rw [s.writeCtrl_reset v hsrst, State.hardReset_keyv]
    | false => rw [s.writeCtrl_ie v hsrst, State.setIe_keyv, h]
  | cmd =>
    show (s.writeCmd v).keyv = false
    cases hbusy : s.busy with
    | true => rw [s.writeCmd_busy v hbusy, State.overrun_keyv, h]
    | false => rw [s.writeCmd_idle v hbusy, State.accept_keyv, h]
  | operand r => exact (s.setOpReg_keyv r v).trans h
  | token i => rfl
  | id | status | errinfo | reserved | key | iv | digest | dbuf => exact h

theorem applyAccess_keyv_clear {s : State} (a : Access) (h : s.keyv = false) :
    (applyAccess a s).keyv = false := by
  rcases applyAccess_cases a s with hsame | ⟨w, off, v, -, -, hwrite⟩
  · rw [hsame, h]
  · rw [hwrite]
    exact writeRegion_keyv_clear w v _ h

/-- KEYV = 0 in the state that a command's pseudocode ends in. -/
def CmdEnd.KeyvClear : CmdEnd → Prop
  | .complete t => t.keyv = false
  | .raised _ _ t => t.keyv = false
  | .fault _ => True

namespace CmdEnd.KeyvClear

variable {s : State} {r q : CmdEnd} {a n : Nat}

theorem branch {p : Prop} [Decidable p] (hr : r.KeyvClear) (hq : q.KeyvClear) :
    (if p then r else q).KeyvClear := by
  split_ifs
  · exact hr
  · exact hq

theorem memRead {k : List Byte → CmdEnd} (hk : ∀ bs, (k bs).KeyvClear) : (s.memRead a n k).KeyvClear :=
  branch (hk _) trivial

theorem memWrite {bs : List Byte} {k : State → CmdEnd} (hk : (k (s.poke a bs)).KeyvClear) :
    (s.memWrite a bs k).KeyvClear :=
  branch hk trivial

/-- Completion, successful or in error, leaves KEYV. -/
theorem of_finish {t : State} (h : r.KeyvClear) (hfinish : r.finish = .next t) : t.keyv = false := by
  rcases r.finish_eq_next t hfinish with ⟨u, rfl, rfl⟩ | ⟨c, op, u, rfl, rfl⟩
  · exact h
  · exact h

end CmdEnd.KeyvClear

open CmdEnd.KeyvClear

variable {s : State}

theorem appendSentinel_keyvClear (len : Nat) (h : s.keyv = false) : (appendSentinel s len).KeyvClear :=
  branch h (memWrite h)

/-- A keyed command stops at its key check, DERIVE is excluded, and the others write DBUF, BLEN or DIGEST
alone. -/
theorem runOf_keyvClear {i : Instr} (hi : i ≠ .derive) (h : s.keyv = false) : (runOf i s).KeyvClear := by
  have hcheck (op : Byte) (r : CmdEnd) : (if !s.keyv then .raised .noKey op s else r).KeyvClear := by
    rw [h]
    exact h
  cases i with
  | nop => exact h
  | md5 => exact branch h (memRead fun _ => h)
  | derive => exact absurd rfl hi
  | pad => exact branch h (branch h (branch h (memWrite h)))
  | unpad => exact branch h (branch h (memRead fun _ => branch h (memRead fun _ => branch h h)))
  | sent =>
    exact branch h (branch (appendSentinel_keyvClear _ h)
      (memRead fun _ => branch (appendSentinel_keyvClear _ h) h))
  | strip => exact branch h (branch h (memRead fun _ => branch h h))
  | enc => exact hcheck _ _
  | dec => exact hcheck _ _
  | fenc => exact hcheck _ _
  | fdec => exact hcheck _ _
  | sealFrame => exact hcheck _ _
  | openFrame => exact hcheck _ _

theorem exec_keyv_clear {i : Instr} {t : State} (hi : i ≠ .derive) (h : s.keyv = false)
    (hexec : exec i s = .next t) : t.keyv = false := by
  rw [exec_eq_finish_runOf] at hexec
  exact (runOf_keyvClear hi h).of_finish hexec

end Sys2Proof.Machine
end

section
/-! The port while a command is pending: BUSY matters to data state, to CMD and to STATUS alone
(spec/70_reset_and_hazards.md R294, R295). -/

namespace Sys2Proof.Machine

/-- Outside data state the port permits the same accesses, busy or not. -/
theorem permitted_setBusy (s : State) (b : Bool) (w : Width) (off : Nat) (h : ¬ DataOffset off) :
    permitted { s with busy := b } w off = permitted s w off := by
  have hdata : (regionOf off).isData = false := eq_false_of_ne_true (mt (regionOf_isData_iff off).mp h)
  simp only [permitted, hdata, Bool.and_false]
  rfl

/-- The accesses permitted outside data state: the five control registers, whole, and reserved offsets. -/
theorem permitted_cases_of_not_dataOffset {s : State} {w : Width} {off : Nat}
    (hperm : permitted s w off = true) (h : ¬ DataOffset off) :
    (w = .w32 ∧ (off = 0x000 ∨ off = 0x004 ∨ off = 0x008 ∨ off = 0x00C ∨ off = 0x010)) ∨
      regionOf off = .reserved := by
  simp only [DataOffset, not_or, not_and_or, not_le, not_lt] at h
  by_cases hcontrol : off < 0x014
  · rw [permitted_iff] at hperm
    simp only [RefusedAccess, not_or, not_and_or, not_lt, ne_eq, not_not] at hperm
    obtain ⟨halign, hwidth, -⟩ := hperm
    obtain rfl : w = .w32 := hwidth.resolve_left (by omega)
    simp only [widthBytes] at halign
    exact .inl ⟨rfl, by omega⟩
  · exact .inr (regionOf_reserved off (by omega))

/-- A read outside data state answers the same whatever BUSY is, but for STATUS, which shows it. -/
theorem answerOf_read_setBusy (s : State) (b : Bool) (w : Width) (off : Nat) (h : ¬ DataOffset off)
    (hstatus : off ≠ 0x00C) :
    answerOf (.read w off) { s with busy := b } = answerOf (.read w off) s := by
  have hsame := permitted_setBusy s b w off h
  cases hperm : permitted s w off with
  | false =>
    rw [(answerOf_read_eq_busError_iff _ w off).mpr hperm,
      (answerOf_read_eq_busError_iff _ w off).mpr (hsame.trans hperm)]
  | true =>
    rw [answerOf_read _ w off hperm, answerOf_read _ w off (hsame.trans hperm)]
    rcases permitted_cases_of_not_dataOffset hperm h with ⟨rfl, rfl | rfl | rfl | rfl | rfl⟩ | hreserved
    exacts [rfl, rfl, rfl, absurd rfl hstatus, rfl, by rw [hreserved]; rfl]

theorem answerOf_write_setBusy (s : State) (b : Bool) (w : Width) (off : Nat) (v : Word)
    (h : ¬ DataOffset off) :
    answerOf (.write w off v) { s with busy := b } = answerOf (.write w off v) s := by
  simp only [answerOf, permitted_setBusy s b w off h]

/-- A write outside data state leaves BUSY and does not look at it, but for a CMD write and a reset. -/
theorem applyAccess_write_setBusy (s : State) (b : Bool) (w : Width) (off : Nat) (v : Word)
    (h : ¬ DataOffset off) (hcmd : off ≠ 0x008)
    (hreset : ¬(off = 0x004 ∧ w = .w32 ∧ v.getLsbD 1 = true)) :
    applyAccess (.write w off v) { s with busy := b } =
      { applyAccess (.write w off v) s with busy := b } := by
  have hsame := permitted_setBusy s b w off h
  cases hperm : permitted s w off with
  | false => rw [applyAccess_refused w off v _ hperm, applyAccess_refused w off v _ (hsame.trans hperm)]
  | true =>
    rw [applyAccess_write w off v _ hperm, applyAccess_write w off v _ (hsame.trans hperm)]
    have hctrl (hset : ¬ v.getLsbD 1 = true) :
        State.writeCtrl { s with busy := b } v = { s.writeCtrl v with busy := b } := by
      rw [s.writeCtrl_ie v (eq_false_of_ne_true hset), State.writeCtrl_ie _ v (eq_false_of_ne_true hset)]
      rfl
    rcases permitted_cases_of_not_dataOffset hperm h with ⟨rfl, rfl | rfl | rfl | rfl | rfl⟩ | hreserved
    exacts [rfl, hctrl fun hset => hreset ⟨rfl, rfl, hset⟩, absurd rfl hcmd, rfl, rfl,
      by rw [hreserved]; rfl]

/-- A pending command shows in STATUS as bit 0 alone (R28). -/
theorem State.statusWord_of_busy (s : State) (h : s.busy = true) :
    s.statusWord = { s with busy := false }.statusWord ||| 1 := by
  have hirq : { s with busy := false }.irq = s.irq := rfl
  have hset : flagBit true 0 = 1 := rfl
  have hclear : flagBit false 0 = 0 := rfl
  simp only [State.statusWord, hirq, h, hset, hclear]
  ac_rfl

/-- All that an access can do while a command is pending: reset, store IE, record the overrun, acknowledge. -/
theorem applyAccess_busy_cases (a : Access) (s : State) (h : s.busy = true) :
    applyAccess a s = s ∨ applyAccess a s = s.hardReset ∨ applyAccess a s = s.overrun ∨
      (∃ b, applyAccess a s = s.setIe b) ∨ ∃ v, applyAccess a s = s.writeStatus v := by
  rcases applyAccess_cases a s with hsame | ⟨w, off, v, -, hperm, hwrite⟩
  · exact .inl hsame
  have hdata := permitted_busy s w off hperm h
  rw [hwrite]
  cases hregion : regionOf off with
  | id | errinfo | reserved => exact .inl rfl
  | ctrl =>
    cases hsrst : v.getLsbD 1 with
    | true => exact .inr (.inl (s.writeCtrl_reset v hsrst))
    | false => exact .inr (.inr (.inr (.inl ⟨_, s.writeCtrl_ie v hsrst⟩)))
  | cmd => exact .inr (.inr (.inl (s.writeCmd_busy v h)))
  | status => exact .inr (.inr (.inr (.inr ⟨v, rfl⟩)))
  | operand | token | key | iv | digest | dbuf => rw [hregion] at hdata; cases hdata

end Sys2Proof.Machine
end

section
/-! The statements of spec/70_reset_and_hazards.md on a pending command, on a change of TOKEN and on reset. -/

namespace Sys2Proof.Machine

/-- Settles O44: outside data state the port looks at BUSY at CMD and STATUS alone, and the writes that are
left there reach only IE and the flags. -/
theorem busyProtectsDataState : Obligations.BusyProtectsDataState := by
  intro s hbusy
  have hpending : s = { { s with busy := false } with busy := true } := by rw [← hbusy]
  refine ⟨fun w off hdata => ?_, fun w off hdata => ?_, fun w off hdata hstatus => ?_,
    fun w off v hdata => ?_, ?_, fun w off v hdata hcmd hreset => ?_, fun v => ?_, ?_, fun a hkept => ?_⟩
  · have hrefused := (permitted_eq_false_iff s w off).mpr (.inr (.inr (.inr ⟨hbusy, hdata⟩)))
    exact ⟨(answerOf_read_eq_busError_iff s w off).mpr hrefused,
      fun v => (answerOf_write_eq_busError_iff s w off v).mpr hrefused⟩
  · rw [← permitted_eq_false_iff, ← permitted_eq_false_iff, permitted_setBusy s false w off hdata]
  · exact (answerOf_read_setBusy s false w off hdata hstatus).symm
  · exact (answerOf_write_setBusy s false w off v hdata).symm
  · rw [← s.statusWord_of_busy hbusy]
    exact answerOf_read s .w32 0x00C (permitted_control s 0x00C rfl (by decide))
  · rw [← applyAccess_write_setBusy _ true w off v hdata hcmd hreset, ← hpending]
  · rw [applyAccess_write_cmd, s.writeCmd_busy v hbusy]
    rfl
  · exact applyAccess_write_ctrl_reset s
  · rcases applyAccess_busy_cases a s hbusy with heq | heq | heq | ⟨b, heq⟩ | ⟨v, heq⟩
    case inr.inl => rw [heq] at hkept; cases hkept
    all_goals rw [heq]; exact ⟨rfl, rfl⟩

/-- Settles O53: a TOKEN write clears KEYV, the key check of each keyed command then fails, and neither the
port nor a command other than DERIVE sets KEYV again. -/
theorem tokenChangeNeedsDerive : Obligations.TokenChangeNeedsDerive := by
  refine ⟨fun s w off v hlo hhi hwritten => ?_, fun t hkey => ?_, fun a t => applyAccess_keyv_clear a,
    fun i t u hkey hi => exec_keyv_clear hi hkey, fun t => ⟨_, rfl, rfl⟩⟩
  · rw [applyAccess_write w off v s (permitted_of_written hwritten), regionOf_token off hlo hhi]
    rfl
  · exact ⟨finish_of_noKey hkey _ _, finish_of_noKey hkey _ _, finish_of_noKey hkey _ _,
      finish_of_noKey hkey _ _, exec_sealFrame_of_noKey hkey, exec_openFrame_of_noKey hkey⟩

/-- Settles O55: both sources lead to `State.hardReset`; its registers are read off. -/
theorem resetSourcesAndEffect : Obligations.ResetSourcesAndEffect := fun s =>
  ⟨applyAccess_write_ctrl_reset s, rfl, s.hardReset_ie, s.hardReset_cmd, s.hardReset_statusWord,
    s.hardReset_errinfoWord, s.hardReset_opReg, s.hardReset_token, s.hardReset_key, s.hardReset_iv,
    s.hardReset_digest, s.hardReset_irq, s.hardReset_busy, answerOf_read_id s.hardReset,
    engineTurn_of_idle _ s.hardReset_busy⟩

end Sys2Proof.Machine
end

section
/-! The decoder inverts the encoder (spec/30_encoding.md R90, R91). -/

namespace Sys2Proof.Machine

/-- A command word is its opcode: RSV is 0 (R90). -/
theorem encode_toNat (i : Instr) : (encode i).toNat = (opcodeOf i).toNat := by
  cases i <;> rfl

/-- Settles O2: the decoder looks the whole word up as a number, and that number is the encoder's word. -/
theorem decodeAndEncodeAgree : Obligations.DecodeAndEncodeAgree := by
  intro i w
  rw [decode_eq_ok_iff_toNat, ← encode_toNat, BitVec.toNat_inj]

/-- Settles O5: each word is, as a number, the opcode of its command. -/
theorem writtenOutWordsDecode : Obligations.WrittenOutWordsDecode := by
  simp only [Obligations.WrittenOutWordsDecode, decode_eq_ok_iff_toNat]
  decide

end Sys2Proof.Machine
end

section
/-! The padding of MD5 (spec/40_md5.md R110) and the tables and products of AES-128 (spec/41_cipher.md R141,
R144, R145). -/

namespace Sys2Proof.Machine

theorem md5Pad_length (m : List Byte) : (md5Pad m).length = m.length + 1 + md5Zeros m.length + 8 := by
  simp only [md5Pad, List.length_append, List.length_singleton, List.length_replicate, le64_length]

/-- Settles O13: the model's number of zero bytes is the least one, and eight bytes follow the position 56
modulo 64. -/
theorem md5PaddingIsWholeBlocks : Obligations.Md5PaddingIsWholeBlocks := by
  intro m
  obtain ⟨hresidue, hleast⟩ := md5Zeros_least m.length
  refine ⟨md5Zeros m.length, hresidue, hleast, rfl, ?_, ?_⟩
  all_goals
    rw [md5Pad_length]
    omega

theorem sbox_invSbox : ∀ a : Byte, sbox (invSbox a) = a := by decide +kernel

/-- The products of R145 as sums of `xtime`, one for each bit of the constant. -/
theorem gmul_eq_xtime_sums : ∀ a : Byte, gmul 0x02 a = xtime a ∧ gmul 0x03 a = xtime a ^^^ a ∧
    gmul 0x09 a = xtime (xtime (xtime a)) ^^^ a ∧
    gmul 0x0b a = xtime (xtime (xtime a)) ^^^ xtime a ^^^ a ∧
    gmul 0x0d a = xtime (xtime (xtime a)) ^^^ xtime (xtime a) ^^^ a ∧
    gmul 0x0e a = xtime (xtime (xtime a)) ^^^ xtime (xtime a) ^^^ xtime a := by decide +kernel

/-- Settles O15: the tables and the products are evaluated on every byte. -/
theorem cipherTablesAndProducts : Obligations.CipherTablesAndProducts := fun a =>
  ⟨invSbox_sbox a, sbox_invSbox a, gmul_eq_xtime_sums a⟩

end Sys2Proof.Machine
end

section
/-! The other direction of the cipher's inverse laws (spec/41_cipher.md R143, R147). -/

namespace Sys2Proof.Machine

theorem finite_block : Finite Block :=
  Finite.of_injective (fun (b : Block) (i : Fin 16) => b[i].toFin) fun b c h => by
    apply Vector.ext
    intro i hi
    exact BitVec.toFin_injective (congrFun h ⟨i, hi⟩)

/-- `aes_enc(k, ·)` is injective, since `aes_dec(k, ·)` undoes it; there are finitely many blocks, so it is also
onto, and undoes `aes_dec(k, ·)` (R143). -/
theorem aesEnc_aesDec (k b : Block) : aesEnc k (aesDec k b) = b := by
  have hleft : Function.LeftInverse (aesDec k) (aesEnc k) := aesDec_aesEnc k
  have := finite_block
  exact hleft.rightInverse_of_surjective (Finite.surjective_of_injective hleft.injective) b

/-- Settles O16: the left inverse law, and the right one it implies. -/
theorem aesDecInvertsAesEnc : Obligations.AesDecInvertsAesEnc :=
  fun k b => ⟨aesDec_aesEnc k b, aesEnc_aesDec k b⟩

/-- The chain of R146 runs over the same ciphertext blocks as the one of R147. -/
theorem cbcEncBlocks_cbcDecBlocks (k : Block) (cs : List Block) :
    ∀ prev, cbcEncBlocks k prev (cbcDecBlocks k prev cs) = cs := by
  induction cs with
  | nil => intro prev; rfl
  | cons c cs ih => intro prev; simp only [cbcDecBlocks, cbcEncBlocks, xorBlock_cancel, aesEnc_aesDec, ih]

theorem cbcEnc_cbcDec (k iv : Block) (c : List Byte) (h : c.length % 16 = 0) :
    cbcEnc k iv (cbcDec k iv c) = c := by
  have hblocks : blocksOf (c.length / blockBytes) (cbcDec k iv c) =
      cbcDecBlocks k iv (blocksOf (c.length / blockBytes) c) := by
    have h := blocksOf_flatMap (cbcDecBlocks k iv (blocksOf (c.length / blockBytes) c))
    rwa [cbcDecBlocks_length, blocksOf_length] at h
  rw [cbcEnc, cbcDec_length k iv c h, hblocks, cbcEncBlocks_cbcDecBlocks]
  exact flatMap_blocksOf _ c (by simp only [blockBytes]; omega)

/-- Settles O17: block by block each direction undoes the other, and both keep whole blocks whole. -/
theorem cbcDecInvertsCbcEnc : Obligations.CbcDecInvertsCbcEnc := fun k iv p h =>
  ⟨cbcDec_cbcEnc k iv p h, cbcEnc_cbcDec k iv p h, cbcEnc_length k iv p h, cbcDec_length k iv p h⟩

end Sys2Proof.Machine
end

section
/-! A write of DBUF by what a reader sees of it (spec/20_memory.md R77, R78): adjacent writes are one, a write
over another hides it, and a region reads as what was stored in it. -/

namespace Sys2Proof.Machine

variable {s t u : State} {a : Nat} {xs ys : List Byte}

theorem State.stores_poke (s : State) (a : Nat) (bs : List Byte) : s.Stores (s.poke a bs) a bs :=
  s.byte_poke a bs

theorem State.Stores.of_dbuf (h : s.Stores t a xs) (hd : u.dbuf = t.dbuf) (hr : u.resets = t.resets) :
    s.Stores u a xs := fun i => (t.byte_congr u hd hr i).trans (h i)

theorem State.Stores.finishDone (h : s.Stores t a xs) : s.Stores t.finishDone a xs := h.of_dbuf rfl rfl

theorem State.Stores.byte_outside (h : s.Stores t a xs) {i : Nat} (hi : i < a ∨ a + xs.length ≤ i) :
    t.byte i = s.byte i := by
  rw [h i, if_neg (by omega)]

theorem State.Stores.append (h : s.Stores t a xs) (h' : t.Stores u (a + xs.length) ys) :
    s.Stores u a (xs ++ ys) := by
  intro i
  rw [h' i, h i, List.length_append]
  by_cases hy : a + xs.length ≤ i ∧ i < a + xs.length + ys.length
  · rw [if_pos hy, if_pos (by omega), List.getD_append_right _ _ _ _ (by omega)]
    congr 1
    omega
  · rw [if_neg hy]
    by_cases hx : a ≤ i ∧ i < a + xs.length
    · rw [if_pos hx, if_pos (by omega), List.getD_append _ _ _ _ (by omega)]
    · rw [if_neg hx, if_neg (by omega)]

theorem State.Stores.overwrite (h : s.Stores t a xs) (h' : t.Stores u a ys) (hle : xs.length ≤ ys.length) :
    s.Stores u a ys := by
  intro i
  rw [h' i]
  split_ifs with hi
  · rfl
  · exact h.byte_outside (by omega)

theorem State.Stores.prepend (h : s.Stores t (a + xs.length) ys) (h' : t.Stores u a xs) :
    s.Stores u a (xs ++ ys) := by
  intro i
  rw [h' i, h i, List.length_append]
  by_cases hx : a ≤ i ∧ i < a + xs.length
  · rw [if_pos hx, if_pos (by omega), List.getD_append _ _ _ _ (by omega)]
  · rw [if_neg hx]
    by_cases hy : a + xs.length ≤ i ∧ i < a + xs.length + ys.length
    · rw [if_pos hy, if_pos (by omega), List.getD_append_right _ _ _ _ (by omega)]
      congr 1
      omega
    · rw [if_neg hy, if_neg (by omega)]

theorem State.Stores.peek (h : s.Stores t a xs) : t.peek a xs.length = xs :=
  calc t.peek a xs.length = (s.poke a xs).peek a xs.length :=
        State.peek_congr _ _ _ _ fun i _ => (h (a + i)).trans (s.byte_poke a xs (a + i)).symm
    _ = xs := s.peek_poke_same a xs

/-- What stands in a region already may be counted as stored there. -/
theorem State.stores_peek (s : State) (a n : Nat) : s.Stores s a (s.peek a n) := by
  intro i
  split_ifs with hi
  · rw [s.peek_length] at hi
    rw [List.getD_eq_getElem _ _ (by rw [s.peek_length]; omega), s.peek_getElem, Nat.add_sub_of_le hi.1]
  · rfl

end Sys2Proof.Machine
end

section
/-! The pseudocode of each primitive as its checks in their order, with the one state it leaves past them
(spec/40_md5.md R118, spec/41_cipher.md R149 to R152, spec/42_frame.md R192, R193, spec/43_sequence.md R221). The
checks keep every access inside DBUF (spec/60_exceptions.md R256). -/

namespace Sys2Proof.Machine

variable (s : State)

/-- What PAD leaves past its checks (R149). -/
def State.padded : State :=
  (s.poke (bodyOffset + s.bodyLen) (padBytes (padLength s.bodyLen))).setBlen
    (s.bodyLen + padLength s.bodyLen)

/-- What FDEC leaves past its checks (R193). -/
def State.exposed : State := (s.setDigest s.imageDigest).setBlen (s.frameLen - bodyOffset)

/-- What SENT leaves past its checks (R221). -/
def State.sentineled : State :=
  if s.body = [] ∨ s.body.getLastD 0x00 ≠ 0x00 then
    (s.poke (bodyOffset + s.bodyLen) [0x00]).setBlen (s.bodyLen + 1)
  else s

/-- What STRIP leaves past its check (R222). -/
def State.stripped : State :=
  if s.body ≠ [] ∧ s.body.getLastD 0x00 = 0x00 then s.setBlen (s.bodyLen - 1) else s

theorem State.bodyPastEnd_iff : s.bodyPastEnd = true ↔ s.dbufBytes - bodyOffset < s.bodyLen := by
  rw [State.bodyPastEnd, decide_eq_true_iff]

/-- A body that is not past the end lies inside the buffer, header included: the buffer has 64 bytes or more. -/
theorem State.body_inside {s : State} (h : ¬s.dbufBytes - bodyOffset < s.bodyLen) :
    bodyOffset + s.bodyLen ≤ s.dbufBytes :=
  State.body_inside_of_not_pastEnd (mt s.bodyPastEnd_iff.mp h)

/-- Two spellings of one check, and what follows it. -/
theorem check_congr {p q : Prop} [Decidable p] [Decidable q] {x r r' : CmdEnd} (hpq : p ↔ q)
    (h : ¬q → r = r') : (if p then x else r) = if q then x else r' :=
  ite_congr (propext hpq) (fun _ => rfl) h

theorem runMd5_eq : runMd5 s =
    if s.dbufBytes < s.hoff.toNat + s.hlen.toNat then .raised .range 0x01 s
    else .complete (s.setDigest (md5 (s.peek s.hoff.toNat s.hlen.toNat))) :=
  check_congr decide_eq_true_iff fun hend => s.memRead_of_le _ _ _ (Nat.not_lt.mp hend)

theorem runPad_eq : runPad s =
    if s.dbufBytes - bodyOffset < s.bodyLen then .raised .range 0x11 s
    else if s.bodyLen = 0 then .raised .emptyInput 0x11 s
    else if s.dbufBytes < bodyOffset + s.bodyLen + padLength s.bodyLen then .raised .bufOvf 0x11 s
    else .complete s.padded :=
  check_congr s.bodyPastEnd_iff fun _ => check_congr .rfl fun _ => check_congr .rfl fun hfit =>
    s.memWrite_of_le _ _ _ (by rw [padBytes_length]; exact Nat.not_lt.mp hfit)

/-- The conditions of R150 as UNPAD checks them: the claimed length first, then the tail of that length. -/
theorem State.goodPadding_body_iff : GoodPadding s.body ↔
    ¬(claimedPad s.body = 0 ∨ s.bodyLen < claimedPad s.body ∨ s.bodyLen % blockBytes ≠ 0) ∧
      s.peek (bodyOffset + s.bodyLen - claimedPad s.body) (claimedPad s.body) =
        padBytes (claimedPad s.body) := by
  rw [GoodPadding, s.body_length, not_or, not_or, not_lt, not_not, and_assoc, and_assoc]
  refine and_congr_right fun _ => and_congr_right fun hle => and_congr_right fun _ => ?_
  conv_lhs => rw [State.body, s.peek_drop _ _ _ (Nat.sub_le _ _), ← State.body, Nat.sub_sub_self hle,
    ← Nat.add_sub_assoc hle]
  rfl

theorem runUnpad_eq : runUnpad s =
    if s.dbufBytes - bodyOffset < s.bodyLen then .raised .range 0x12 s
    else if s.bodyLen = 0 ∨ ¬GoodPadding s.body then .raised .badPad 0x12 s
    else .complete (s.setBlen (s.bodyLen - claimedPad s.body)) := by
  refine check_congr s.bodyPastEnd_iff fun hend => ?_
  rw [ite_or]
  refine check_congr .rfl fun hne => ?_
  have hin := State.body_inside hend
  rw [s.memRead_of_le _ _ _ (by omega), s.peek_last hne]
  by_cases hclaim : claimedPad s.body = 0 ∨ s.bodyLen < claimedPad s.body ∨ s.bodyLen % blockBytes ≠ 0
  · rw [if_pos hclaim, if_pos fun hgood => (s.goodPadding_body_iff.mp hgood).1 hclaim]
  · rw [if_neg hclaim, s.memRead_of_le _ _ _ (by omega)]
    refine check_congr ?_ fun _ => rfl
    rw [s.goodPadding_body_iff, and_iff_right hclaim]

theorem State.not_keyv_iff : (!s.keyv) = true ↔ s.keyv = false := by rw [Bool.not_eq_true']

theorem runEnc_eq : runEnc s =
    if s.keyv = false then .raised .noKey 0x13 s
    else if s.dbufBytes - bodyOffset < s.bodyLen then .raised .range 0x13 s
    else if s.bodyLen % blockBytes ≠ 0 then .raised .align 0x13 s
    else .complete (s.poke bodyOffset (cbcEnc s.key s.iv s.body)) :=
  check_congr s.not_keyv_iff fun _ => check_congr s.bodyPastEnd_iff fun hend =>
    check_congr .rfl fun halign => s.memRead_memWrite_body _ (State.body_inside hend)
      ((cbcEnc_length _ _ _ (s.body_length ▸ not_not.mp halign)).trans s.body_length)

theorem runDec_eq : runDec s =
    if s.keyv = false then .raised .noKey 0x14 s
    else if s.dbufBytes - bodyOffset < s.bodyLen then .raised .range 0x14 s
    else if s.bodyLen % blockBytes ≠ 0 then .raised .align 0x14 s
    else .complete (s.poke bodyOffset (cbcDec s.key s.iv s.body)) :=
  check_congr s.not_keyv_iff fun _ => check_congr s.bodyPastEnd_iff fun hend =>
    check_congr .rfl fun halign => s.memRead_memWrite_body _ (State.body_inside hend)
      ((cbcDec_length _ _ _ (s.body_length ▸ not_not.mp halign)).trans s.body_length)

theorem runFenc_eq : runFenc s =
    if s.keyv = false then .raised .noKey 0x20 s
    else if s.dbufBytes - bodyOffset < s.bodyLen then .raised .range 0x20 s
    else if maxFrame < bodyOffset + s.bodyLen then .raised .lenOvf 0x20 s
    else .complete (s.framedWith (frameDigest s.devid s.stamp s.token s.body)) := by
  refine check_congr s.not_keyv_iff fun _ => check_congr s.bodyPastEnd_iff fun hend =>
    check_congr .rfl fun _ => ?_
  have hin := State.body_inside hend
  have hsize := s.dbufBytes_bounds
  simp (disch := simp [slotOffset]; omega) only [State.memWrite_of_le, State.poke_devid, State.poke_stamp,
    State.poke_token, s.poke_header]
  rw [s.fencImage.memRead_of_le 0 _ _ (by simpa using hin), State.fencImage_peek, State.framedWith, frameDigest,
    State.body_length]

/-- EMPTY_BODY is unreachable: a frame of 33 bytes or more has a byte after its header (R193, U12). -/
theorem runFdec_eq : runFdec s =
    if s.keyv = false then .raised .noKey 0x21 s
    else if s.dbufBytes < s.frameLen then .raised .range 0x21 s
    else if s.frameLen < minFrame then .raised .shortFrame 0x21 s
    else if ¬WellFormedFrame s.frame s.token then .raised .checksum 0x21 s
    else .complete s.exposed := by
  refine check_congr s.not_keyv_iff fun _ => check_congr decide_eq_true_iff fun hend =>
    check_congr .rfl fun hmin => ?_
  simp only [minFrame, not_lt] at hend hmin
  rw [s.memRead_of_le _ _ _ (by simp only [slotOffset]; omega),
    s.memRead_of_le _ _ _ (by simp only [slotOffset]; omega),
    s.memRead_of_le _ _ _ (by simp only [bodyOffset]; omega)]
  refine check_congr ?_ fun _ => if_neg (by simp only [bodyOffset]; omega)
  rw [s.wellFormedFrame_iff (by omega), eq_comm]
  rfl

/-- A sentinel that stands already needs no room, so SENT's second check is about the body it leaves (R221). -/
theorem runSent_eq : runSent s =
    if s.dbufBytes - bodyOffset < s.bodyLen then .raised .range 0x30 s
    else if s.dbufBytes < bodyOffset + (withSentinel s.body).length then .raised .bufOvf 0x30 s
    else .complete s.sentineled := by
  refine check_congr s.bodyPastEnd_iff fun hend => ?_
  have hin := State.body_inside hend
  have hread (hne : s.bodyLen ≠ 0) := s.memRead_last hne hin fun b =>
    if b ≠ 0x00 then appendSentinel s s.bodyLen else .complete s
  by_cases h : s.body = [] ∨ s.body.getLastD 0x00 ≠ 0x00
  · rw [withSentinel_of_absent h, List.length_append, s.body_length, State.sentineled, if_pos h]
    have happend : appendSentinel s s.bodyLen = _ := check_congr .rfl fun hfit =>
      s.memWrite_of_le _ _ _ (Nat.not_lt.mp hfit)
    by_cases hzero : s.bodyLen = 0
    · exact (if_pos hzero).trans happend
    · have hlast := h.resolve_left (mt s.body_eq_nil_iff.mp hzero)
      exact (if_neg hzero).trans ((hread hzero).trans ((if_pos hlast).trans happend))
  · obtain ⟨hne, hlast⟩ := not_or.mp h
    have hzero := mt s.body_eq_nil_iff.mpr hne
    rw [withSentinel_of_present hne (not_not.mp hlast), s.body_length, if_neg (Nat.not_lt.mpr hin),
      State.sentineled, if_neg h]
    exact (if_neg hzero).trans ((hread hzero).trans (if_neg hlast))

theorem runStrip_eq_ite : runStrip s =
    if s.dbufBytes - bodyOffset < s.bodyLen then .raised .range 0x31 s else .complete s.stripped := by
  split_ifs with hend
  · exact if_pos (s.bodyPastEnd_iff.mpr hend)
  · exact runStrip_eq s (State.body_inside hend)

end Sys2Proof.Machine
end

section
/-! The statements of spec/40_md5.md, spec/41_cipher.md, spec/42_frame.md and spec/43_sequence.md on the single
commands: what each leaves past its checks, and the errors in the order of the checks. -/

namespace Sys2Proof.Machine

theorem exec_of_run {i : Instr} {s : State} {r : CmdEnd} (h : runOf i s = r) : exec i s = r.finish := by
  rw [exec_eq_finish_runOf, h]

/-- A command whose first check is `p` ends in that error if `p` holds, and otherwise goes on. -/
theorem failed_or_rest {whole : Host.Outcome State Fault Refusal} {s : State} {c : ErrCode} {op : Byte}
    {p rest : Prop} [Decidable p] {r : CmdEnd} (h : whole = (if p then .raised c op s else r : CmdEnd).finish)
    (hrest : ¬p → whole = r.finish → rest) : if p then whole = .next (s.failed c op) else rest := by
  split_ifs with hp
  · rw [h, if_pos hp]
    rfl
  · exact hrest hp (by rw [h, if_neg hp])

/-- The room for a body that BLEN's own range check leaves (R30). -/
theorem State.body_inside_of_le {s : State} (h : s.blen.toNat ≤ s.dbufBytes - 32) :
    bodyOffset + s.bodyLen ≤ s.dbufBytes := State.body_inside (Nat.not_lt.mpr h)

theorem State.registers_poke_setBlen (s : State) (a n : Nat) (bs : List Byte) :
    { ((s.poke a bs).setBlen n).finishDone with dbuf := s.dbuf } =
      { s with blen := BitVec.ofNat 32 n, busy := false, done := true } := rfl

/-- Settles O14: the one check, and the digest past it. -/
theorem md5HashesTheRegion : Obligations.Md5HashesTheRegion := by
  intro s
  have hexec : exec .md5 s = _ := exec_of_run (i := .md5) (runMd5_eq s)
  refine ⟨fun hin => ?_, fun hend => ?_⟩
  · rw [hexec, if_neg (Nat.not_lt.mpr hin)]
    generalize md5 (s.peek s.hoff.toNat s.hlen.toNat) = d
    rfl
  · rw [hexec, if_pos hend]
    rfl

/-- Settles O18: DERIVE has no check. -/
theorem deriveSetsTheKeys : Obligations.DeriveSetsTheKeys := fun _ => rfl

/-- Settles O33: NOP has no check and no effect of its own. -/
theorem nopCompletes : Obligations.NopCompletes := fun _ => rfl

/-- Settles O19: the padding is PAD's one write. -/
theorem padAppendsThePadding : Obligations.PadAppendsThePadding := fun s hne hfit =>
  ⟨_, exec_pad s hne hfit, s.stores_poke _ _, s.registers_poke_setBlen _ _ _⟩

/-- Settles O20: PAD's checks in their order. -/
theorem padErrors : Obligations.PadErrors := fun s =>
  failed_or_rest (exec_of_run (i := .pad) (runPad_eq s)) fun _ h =>
    failed_or_rest h fun _ h => failed_or_rest h fun _ _ => trivial

/-- Settles O21: UNPAD writes BLEN alone. -/
theorem unpadRemovesThePadding : Obligations.UnpadRemovesThePadding := fun s hin hgood =>
  exec_unpad s (State.body_inside_of_le hin) hgood

/-- Settles O22: UNPAD's three checks of the padding together are `GoodPadding`. -/
theorem unpadErrors : Obligations.UnpadErrors := fun s =>
  failed_or_rest (exec_of_run (i := .unpad) (runUnpad_eq s)) fun _ h => failed_or_rest h fun _ _ => trivial

/-- Settles O23: the ciphertext is ENC's one write. -/
theorem encEncryptsInPlace : Obligations.EncEncryptsInPlace := fun s hkey hin halign =>
  ⟨_, exec_enc s hkey (State.body_inside_of_le hin) halign, s.stores_poke _ _, rfl⟩

/-- Settles O24: the plaintext is DEC's one write. -/
theorem decDecryptsInPlace : Obligations.DecDecryptsInPlace := fun s hkey hin halign =>
  ⟨_, exec_dec s hkey (State.body_inside_of_le hin) halign, s.stores_poke _ _, rfl⟩

/-- Settles O25: ENC and DEC have the same checks, each with its own opcode. -/
theorem encDecErrors : Obligations.EncDecErrors := by
  intro s i op hi
  have hrun : ∃ t, exec i s = (if s.keyv = false then .raised .noKey op s
      else if s.dbufBytes - bodyOffset < s.bodyLen then .raised .range op s
      else if s.bodyLen % blockBytes ≠ 0 then .raised .align op s else .complete t : CmdEnd).finish := by
    simp only [List.mem_cons, Prod.mk.injEq, List.not_mem_nil, or_false] at hi
    rcases hi with ⟨rfl, rfl⟩ | ⟨rfl, rfl⟩
    · exact ⟨_, exec_of_run (i := .enc) (runEnc_eq s)⟩
    · exact ⟨_, exec_of_run (i := .dec) (runDec_eq s)⟩
  obtain ⟨t, h⟩ := hrun
  exact failed_or_rest h fun _ h => failed_or_rest h fun _ h => failed_or_rest h fun _ _ => trivial

/-- FENC's writes add up to the header: the digest stands where the token stood as placeholder (R192). -/
theorem State.stores_framedWith (s : State) (d : Block) : s.Stores (s.framedWith d) 0
    (frameHead (bodyOffset + s.bodyLen) s.devid s.stamp ++ d.toList) := by
  have hhead := s.stores_poke 0 (frameHead (bodyOffset + s.bodyLen) s.devid s.stamp)
  have htoken := State.stores_poke (s.poke 0 (frameHead (bodyOffset + s.bodyLen) s.devid s.stamp)) slotOffset
    s.token.toList
  rw [show slotOffset = 0 + (frameHead (bodyOffset + s.bodyLen) s.devid s.stamp).length from rfl,
    ← State.poke_append] at htoken
  have hheader := hhead.append (htoken.overwrite (State.stores_poke s.fencImage slotOffset d.toList) (by simp))
  exact hheader.of_dbuf (by simp [State.framedWith]) (by simp [State.framedWith])

theorem State.framedWith_registers (s : State) (d : Block) :
    { (s.framedWith d).finishDone with dbuf := s.dbuf } = { s with
      flen := BitVec.ofNat 32 (bodyOffset + s.bodyLen), digest := d, busy := false, done := true } := by
  simp [State.framedWith, State.fencImage]

/-- Settles O27: the header FENC writes is the one of R190, and its slot is the digest of the image. -/
theorem fencBuildsTheFrame : Obligations.FencBuildsTheFrame := by
  intro s hkey hin hfit
  have hbody := State.body_inside_of_le hin
  have hdigest := s.framedWith_imageDigest (frameDigest s.devid s.stamp s.token s.body) hbody
  have hstores := s.stores_framedWith (frameDigest s.devid s.stamp s.token s.body)
  refine ⟨_, exec_fenc s hkey hbody hfit, ?_, s.framedWith_registers _, ?_⟩
  · rw [frameHeader, s.body_length]
    exact hstores.finishDone
  · refine (State.wellFormedFrame_iff _ ?_).mpr ?_
    · rw [State.finishDone_frameLen, s.framedWith_frameLen _ hbody]
      exact Nat.le_add_right _ _
    · rw [State.finishDone_peek, State.finishDone_imageDigest, hdigest, s.framedWith_slot]

/-- Settles O28: FENC's checks in their order. -/
theorem fencErrors : Obligations.FencErrors := fun s =>
  failed_or_rest (exec_of_run (i := .fenc) (runFenc_eq s)) fun _ h =>
    failed_or_rest h fun _ h => failed_or_rest h fun _ _ => trivial

/-- Settles O29: the slot of a well-formed frame is the digest FDEC computes. -/
theorem fdecExposesTheBody : Obligations.FdecExposesTheBody := by
  intro s hkey hmin hin hwell
  have hslot := (s.wellFormedFrame_iff (Nat.le_of_succ_le hmin)).mp hwell
  rw [exec_fdec s hkey hmin hin, if_neg (not_not_intro hslot.symm)]
  generalize s.imageDigest = d
  rfl

/-- Settles O30: FDEC's checks in their order. -/
theorem fdecErrors : Obligations.FdecErrors := fun s =>
  failed_or_rest (exec_of_run (i := .fdec) (runFdec_eq s)) fun _ h => failed_or_rest h fun _ h =>
    failed_or_rest h fun _ h => failed_or_rest h fun _ _ => trivial

/-- The last byte of a non-empty body, by its index in DBUF. -/
theorem State.body_getLastD {s : State} (h : s.bodyLen ≠ 0) :
    s.body.getLastD 0x00 = s.byte (bodyOffset + s.bodyLen - 1) := by
  rw [← BitVec.toNat_inj]
  exact (s.peek_last h).symm

/-- SENT's test, on the body and on the bytes of DBUF (R221). -/
theorem State.sentinelAbsent_iff (s : State) : (s.body = [] ∨ s.body.getLastD 0x00 ≠ 0x00) ↔
    (s.bodyLen = 0 ∨ s.byte (bodyOffset + s.bodyLen - 1) ≠ 0x00) := by
  rw [s.body_eq_nil_iff]
  exact or_congr_right' fun h => by rw [State.body_getLastD h]

theorem exec_sent {s : State} (hin : bodyOffset + s.bodyLen ≤ s.dbufBytes)
    (hfit : bodyOffset + (withSentinel s.body).length ≤ s.dbufBytes) :
    exec .sent s = .next s.sentineled.finishDone := by
  have h : exec .sent s = _ := exec_of_run (i := .sent) (runSent_eq s)
  rw [h, if_neg (by omega), if_neg (Nat.not_lt.mpr hfit)]
  rfl

/-- Settles O34: an absent sentinel is SENT's one write; with the sentinel present SENT needs no room. -/
theorem sentAppendsTheSentinel : Obligations.SentAppendsTheSentinel := by
  intro s hin
  replace hin := State.body_inside_of_le hin
  split_ifs with h
  · intro hfit
    have habsent := s.sentinelAbsent_iff.mpr h
    have hexec := exec_sent hin
      (by rw [withSentinel_of_absent habsent, List.length_append, s.body_length]; exact hfit)
    rw [State.sentineled, if_pos habsent] at hexec
    exact ⟨_, hexec, s.stores_poke _ _, s.registers_poke_setBlen _ _ _⟩
  · have hpresent := mt s.sentinelAbsent_iff.mp h
    have hexec := exec_sent hin (by rw [withSentinel, if_neg hpresent, s.body_length]; exact hin)
    rw [State.sentineled, if_neg hpresent] at hexec
    exact hexec

/-- Settles O35: STRIP past its check, with the last byte named by its index. -/
theorem stripRemovesTheSentinel : Obligations.StripRemovesTheSentinel := by
  intro s hin
  have hexec : exec .strip s = .next s.stripped.finishDone :=
    exec_of_run (i := .strip) (runStrip_eq s (State.body_inside_of_le hin))
  have htest : (s.body ≠ [] ∧ s.body.getLastD 0x00 = 0x00) ↔
      (s.blen.toNat ≠ 0 ∧ s.byte (32 + s.blen.toNat - 1) = 0x00) := by
    have h := not_congr s.sentinelAbsent_iff
    rwa [not_or, not_or, not_ne_iff, not_ne_iff] at h
  rw [hexec, State.stripped]
  simp only [htest]
  split_ifs <;> rfl

/-- Only an absent sentinel can find no room behind a body that is inside the buffer (R221). -/
theorem State.sentinel_overflow_iff {s : State} (hin : bodyOffset + s.bodyLen ≤ s.dbufBytes) :
    s.dbufBytes < bodyOffset + (withSentinel s.body).length ↔
      (s.bodyLen = 0 ∨ s.byte (bodyOffset + s.bodyLen - 1) ≠ 0x00) ∧
        s.dbufBytes < bodyOffset + s.bodyLen + 1 := by
  rw [← s.sentinelAbsent_iff, withSentinel]
  split_ifs with h
  · rw [List.length_append, s.body_length, and_iff_right h]
    rfl
  · rw [s.body_length]
    exact iff_of_false (Nat.not_lt.mpr hin) fun habsent => h habsent.1

/-- Settles O36: SENT asks for room only if the sentinel is absent. -/
theorem sentStripErrors : Obligations.SentStripErrors := by
  intro s
  constructor
  · refine failed_or_rest (exec_of_run (i := .sent) (runSent_eq s)) fun hend h => ?_
    simp only [State.sentinel_overflow_iff (State.body_inside hend)] at h
    exact failed_or_rest h fun _ _ => trivial
  · intro hend
    have h : exec .strip s = _ := exec_of_run (i := .strip) (runStrip_eq_ite s)
    rw [h]
    exact congrArg CmdEnd.finish (if_pos hend)

end Sys2Proof.Machine
end

section
/-! What the parts of SEAL and OPEN make of the body, one after the other (spec/43_sequence.md R223, R224). -/

namespace Sys2Proof.Machine

/-- `t` is `s` with `b` for its body: BLEN is its length, and no other register and no byte outside it differs. -/
structure State.BodyBecomes (s t : State) (b : List Byte) : Prop where
  fits : bodyOffset + b.length ≤ s.dbufBytes
  stores : s.Stores t bodyOffset b
  registers : { t with dbuf := s.dbuf } = { s with blen := BitVec.ofNat 32 b.length }

namespace State.BodyBecomes

variable {s t u : State} {b c : List Byte}

theorem keyv (h : s.BodyBecomes t b) : t.keyv = s.keyv := (congrArg State.keyv h.registers :)

theorem key (h : s.BodyBecomes t b) : t.key = s.key := (congrArg State.key h.registers :)

theorem iv (h : s.BodyBecomes t b) : t.iv = s.iv := (congrArg State.iv h.registers :)

theorem token (h : s.BodyBecomes t b) : t.token = s.token := (congrArg State.token h.registers :)

theorem devid (h : s.BodyBecomes t b) : t.devid = s.devid := (congrArg State.devid h.registers :)

theorem stamp (h : s.BodyBecomes t b) : t.stamp = s.stamp := (congrArg State.stamp h.registers :)

theorem dbufBytes (h : s.BodyBecomes t b) : t.dbufBytes = s.dbufBytes :=
  State.dbufBytes_of_params s t (congrArg State.params h.registers :)

theorem bodyLen (h : s.BodyBecomes t b) : t.bodyLen = b.length := by
  have hblen : t.blen = BitVec.ofNat 32 b.length := (congrArg State.blen h.registers :)
  have hsize := s.dbufBytes_bounds
  have hfits := h.fits
  rw [State.bodyLen, hblen, BitVec.toNat_ofNat, Nat.mod_eq_of_lt (by omega)]

theorem body (h : s.BodyBecomes t b) : t.body = b := by
  rw [State.body, h.bodyLen, h.stores.peek]

theorem inside (h : s.BodyBecomes t b) : bodyOffset + t.bodyLen ≤ t.dbufBytes := by
  rw [h.bodyLen, h.dbufBytes]
  exact h.fits

/-- A body over a body that is no longer hides it. -/
theorem trans (h : s.BodyBecomes t b) (h' : t.BodyBecomes u c) (hle : b.length ≤ c.length) :
    s.BodyBecomes u c where
  fits := h.dbufBytes ▸ h'.fits
  stores := h.stores.overwrite h'.stores hle
  registers := calc
    { u with dbuf := s.dbuf } = { { u with dbuf := t.dbuf } with dbuf := s.dbuf } := rfl
    _ = { { t with dbuf := s.dbuf } with blen := BitVec.ofNat 32 c.length } := by rw [h'.registers]
    _ = { s with blen := BitVec.ofNat 32 c.length } := by rw [h.registers]

/-- A part that fails leaves the body the parts before it made. -/
theorem stores_failed (h : s.BodyBecomes t b) (code : ErrCode) (op : Byte) :
    s.Stores (t.failed code op) bodyOffset b := h.stores

theorem registers_failed (h : s.BodyBecomes t b) (code : ErrCode) (op : Byte) :
    { t.failed code op with dbuf := s.dbuf } =
      { s with blen := BitVec.ofNat 32 b.length }.failed code op := by
  rw [← h.registers]
  rfl

end State.BodyBecomes

variable {s t : State} {b : List Byte}

/-- The body as it stands. -/
theorem State.bodyBecomes_refl (hin : bodyOffset + s.bodyLen ≤ s.dbufBytes) : s.BodyBecomes s s.body where
  fits := by rwa [s.body_length]
  stores := s.stores_peek _ _
  registers := by rw [s.body_length, State.bodyLen, BitVec.ofNat_toNat, BitVec.setWidth_eq]

/-- Bytes written right after the body and counted in BLEN extend it. -/
theorem State.bodyBecomes_append (s : State) (bs : List Byte)
    (hfit : bodyOffset + (s.bodyLen + bs.length) ≤ s.dbufBytes) :
    s.BodyBecomes ((s.poke (bodyOffset + s.bodyLen) bs).setBlen (s.bodyLen + bs.length)) (s.body ++ bs) where
  fits := by rwa [List.length_append, s.body_length]
  stores := by
    refine (s.stores_peek bodyOffset s.bodyLen).append ?_
    rw [s.peek_length]
    exact s.stores_poke _ _
  registers := by
    rw [List.length_append, s.body_length]
    rfl

/-- Another body of the same length written over the body. -/
theorem State.bodyBecomes_poke (s : State) (hin : bodyOffset + s.bodyLen ≤ s.dbufBytes)
    (hlen : b.length = s.bodyLen) : s.BodyBecomes (s.poke bodyOffset b) b where
  fits := by rwa [hlen]
  stores := s.stores_poke _ _
  registers := by rw [hlen, State.bodyLen, BitVec.ofNat_toNat, BitVec.setWidth_eq]; rfl

theorem State.bodyBecomes_sentineled (hin : bodyOffset + s.bodyLen ≤ s.dbufBytes)
    (hfit : bodyOffset + (withSentinel s.body).length ≤ s.dbufBytes) :
    s.BodyBecomes s.sentineled (withSentinel s.body) := by
  rw [withSentinel] at hfit ⊢
  rw [State.sentineled]
  split_ifs at hfit ⊢ with h
  · rw [List.length_append, s.body_length] at hfit
    exact s.bodyBecomes_append [0x00] hfit
  · exact State.bodyBecomes_refl hin

/-- PAD as a part: the body before it is inside the buffer and not empty, so only BUF_OVF is left. -/
theorem State.BodyBecomes.runPad (h : s.BodyBecomes t b) (hne : b ≠ []) : runPad t =
    if s.dbufBytes < bodyOffset + (withPadding b).length then .raised .bufOvf 0x11 t
    else .complete t.padded := by
  have hin := h.inside
  have hlen := h.bodyLen
  have hpos := List.length_pos_iff.mpr hne
  rw [runPad_eq, if_neg (by omega), if_neg (by omega), withPadding_length, ← hlen, h.dbufBytes, Nat.add_assoc]

theorem State.BodyBecomes.padded (h : s.BodyBecomes t b)
    (hfit : bodyOffset + (withPadding b).length ≤ s.dbufBytes) :
    s.BodyBecomes t.padded (withPadding b) := by
  have happend := t.bodyBecomes_append (padBytes (padLength t.bodyLen))
    (by rwa [padBytes_length, h.bodyLen, h.dbufBytes, ← withPadding_length])
  rw [padBytes_length, ← State.padded, h.body, h.bodyLen] at happend
  exact h.trans happend (by rw [withPadding_length]; exact Nat.le_add_right _ _)

/-- Another body of the same length written over the body the parts before made. -/
theorem State.BodyBecomes.poke {c : List Byte} (h : s.BodyBecomes t b) (hlen : c.length = b.length) :
    s.BodyBecomes (t.poke bodyOffset c) c :=
  h.trans (t.bodyBecomes_poke h.inside (hlen.trans h.bodyLen.symm)) hlen.ge

/-- ENC as a part: the key is there, and the body before it is whole blocks inside the buffer. -/
theorem State.BodyBecomes.runEnc (h : s.BodyBecomes t b) (hkey : s.keyv = true) (halign : b.length % 16 = 0) :
    ∃ u, runEnc t = .complete u ∧ s.BodyBecomes u (cbcEnc s.key s.iv b) := by
  have hin := h.inside
  refine ⟨_, ?_, h.poke (cbcEnc_length s.key s.iv b halign)⟩
  rw [runEnc_eq, if_neg (by simp [h.keyv, hkey]), if_neg (by omega),
    if_neg (by rw [h.bodyLen]; exact not_not_intro halign), h.key, h.iv, h.body]

/-- DEC as a part, likewise. -/
theorem State.BodyBecomes.runDec (h : s.BodyBecomes t b) (hkey : s.keyv = true) (halign : b.length % 16 = 0) :
    ∃ u, runDec t = .complete u ∧ s.BodyBecomes u (cbcDec s.key s.iv b) := by
  have hin := h.inside
  refine ⟨_, ?_, h.poke (cbcDec_length s.key s.iv b halign)⟩
  rw [runDec_eq, if_neg (by simp [h.keyv, hkey]), if_neg (by omega),
    if_neg (by rw [h.bodyLen]; exact not_not_intro halign), h.key, h.iv, h.body]

end Sys2Proof.Machine
end

section
/-! SEAL by its parts (spec/43_sequence.md R223): where it stops at PAD, and where it reaches FENC. -/

namespace Sys2Proof.Machine

variable {s : State}

/-- SEAL up to its PAD, where the key is there. -/
theorem exec_sealFrame_eq (hkey : s.keyv = true) : exec .sealFrame s =
    (if s.dbufBytes - bodyOffset < s.bodyLen then .raised .range 0x30 s
    else if s.dbufBytes < bodyOffset + (withSentinel s.body).length then .raised .bufOvf 0x30 s
    else (runPad s.sentineled).andThen fun s2 => (runEnc s2).andThen fun s3 =>
      (runFenc s3).andThen .complete : CmdEnd).finish := by
  rw [exec_sealFrame_of_keyv hkey, runSent_eq]
  split_ifs <;> rfl

theorem State.bodyLen_le_withSentinel (s : State) : s.bodyLen ≤ (withSentinel s.body).length := by
  rw [withSentinel]
  split_ifs <;> simp

/-- SEAL past its SENT: with room for the sentinel, PAD checks only the room for the padding. -/
theorem exec_sealFrame_past_sent (hkey : s.keyv = true)
    (hroom : bodyOffset + (withSentinel s.body).length ≤ s.dbufBytes) :
    s.BodyBecomes s.sentineled (withSentinel s.body) ∧ exec .sealFrame s =
      (if s.dbufBytes < bodyOffset + (withPadding (withSentinel s.body)).length then
        .raised .bufOvf 0x11 s.sentineled
      else (runEnc s.sentineled.padded).andThen runFenc : CmdEnd).finish := by
  have hlen := s.bodyLen_le_withSentinel
  have hbody := State.bodyBecomes_sentineled (by omega) hroom
  refine ⟨hbody, ?_⟩
  rw [exec_sealFrame_eq hkey, if_neg (by omega), if_neg (by omega), hbody.runPad (withSentinel_ne_nil _)]
  simp only [CmdEnd.andThen_complete_right]
  split_ifs <;> rfl

/-- SEAL of a payload with room for the sentinel but not for the padding. -/
theorem sealFrame_stops_at_pad (hkey : s.keyv = true)
    (hroom : bodyOffset + (withSentinel s.body).length ≤ s.dbufBytes)
    (hover : s.dbufBytes < bodyOffset + (withPadding (withSentinel s.body)).length) :
    ∃ t, exec .sealFrame s = .next (t.failed .bufOvf 0x11) ∧ s.BodyBecomes t (withSentinel s.body) := by
  obtain ⟨hbody, hexec⟩ := exec_sealFrame_past_sent hkey hroom
  rw [if_pos hover] at hexec
  exact ⟨_, hexec, hbody⟩

/-- SEAL of a payload that fits with its sentinel and padding ends as FENC of the ciphertext does. -/
theorem sealFrame_ends_as_fenc (hkey : s.keyv = true)
    (hfit : bodyOffset + (withPadding (withSentinel s.body)).length ≤ s.dbufBytes) :
    ∃ t, exec .sealFrame s = exec .fenc t ∧
      s.BodyBecomes t (cbcEnc s.key s.iv (withPadding (withSentinel s.body))) := by
  have hlen := withPadding_length (withSentinel s.body)
  obtain ⟨hbody, hexec⟩ := exec_sealFrame_past_sent hkey (by omega)
  obtain ⟨-, -, hblocks, -⟩ := goodPadding_withPadding (withSentinel s.body)
  obtain ⟨t, hrun, hcipher⟩ := (hbody.padded hfit).runEnc hkey hblocks
  rw [if_neg (Nat.not_lt.mpr hfit), hrun, CmdEnd.andThen_complete] at hexec
  exact ⟨t, hexec, hcipher⟩

end Sys2Proof.Machine
end

section
/-! OPEN by its parts (spec/43_sequence.md R224): what FDEC exposes, where OPEN stops at DEC, and its end past
DEC. -/

namespace Sys2Proof.Machine

/-- STRIP leaves BLEN at the length of the body without its sentinel (R222). -/
theorem State.stripped_eq (s : State) : s.stripped = s.setBlen (withoutSentinel s.body).length := by
  rw [State.stripped, withoutSentinel]
  split_ifs with h
  · rw [List.length_dropLast, s.body_length]
  · rw [s.body_length, State.bodyLen, State.setBlen, BitVec.ofNat_toNat, BitVec.setWidth_eq]

variable {s t : State} {b : List Byte}

/-- UNPAD and STRIP as parts: only the padding is left to check, and only BLEN is written. -/
theorem State.BodyBecomes.runUnpad_runStrip (h : s.BodyBecomes t b) (hne : b.length ≠ 0) :
    (runUnpad t).andThen runStrip =
      if ¬GoodPadding b then .raised .badPad 0x12 t
      else .complete (t.setBlen (withoutSentinel (b.take (b.length - claimedPad b))).length) := by
  have hin := h.inside
  have hlen := h.bodyLen
  have hsize := t.dbufBytes_bounds
  rw [runUnpad_eq, if_neg (by omega), h.body]
  simp only [hlen, hne, false_or]
  by_cases hgood : GoodPadding b
  · have htake : (t.setBlen (b.length - claimedPad b)).body = b.take (b.length - claimedPad b) := by
      rw [State.setBlen_body _ _ (by omega), ← t.peek_take _ _ _ (Nat.sub_le _ _), ← hlen, ← State.body, h.body]
    have hinside : ¬(t.setBlen (b.length - claimedPad b)).dbufBytes - bodyOffset <
        (t.setBlen (b.length - claimedPad b)).bodyLen := by
      rw [← State.body_length, htake, List.length_take]
      change ¬t.dbufBytes - bodyOffset < _
      omega
    rw [if_neg (not_not_intro hgood), if_neg (not_not_intro hgood), CmdEnd.andThen_complete, runStrip_eq_ite,
      if_neg hinside, State.stripped_eq, htake]
    rfl
  · rw [if_pos hgood, if_pos hgood, CmdEnd.andThen_raised]

/-- OPEN up to its DEC, where the key is there (R224). -/
theorem exec_openFrame_eq (hkey : s.keyv = true) : exec .openFrame s =
    (if s.dbufBytes < s.frameLen then .raised .range 0x21 s
    else if s.frameLen < minFrame then .raised .shortFrame 0x21 s
    else if ¬WellFormedFrame s.frame s.token then .raised .checksum 0x21 s
    else (runDec s.exposed).andThen fun s2 => (runUnpad s2).andThen runStrip : CmdEnd).finish := by
  rw [exec_openFrame_of_keyv hkey, runFdec_eq, if_neg (by simp [hkey])]
  simp only [CmdEnd.andThen_complete_right]
  split_ifs <;> rfl

@[simp] theorem State.exposed_keyv (s : State) : s.exposed.keyv = s.keyv := by simp [State.exposed]

@[simp] theorem State.exposed_key (s : State) : s.exposed.key = s.key := by simp [State.exposed]

@[simp] theorem State.exposed_iv (s : State) : s.exposed.iv = s.iv := by simp [State.exposed]

@[simp] theorem State.exposed_dbufBytes (s : State) : s.exposed.dbufBytes = s.dbufBytes :=
  State.dbufBytes_of_params _ _ (by simp [State.exposed])

/-- The body FDEC exposes: all of the frame past the header (R193). -/
theorem State.exposed_body (hin : s.frameLen ≤ s.dbufBytes) :
    s.exposed.body = s.peek bodyOffset (s.frameLen - bodyOffset) := by
  have hsize := s.dbufBytes_bounds
  rw [State.exposed, State.setBlen_body _ _ (by omega)]
  exact State.peek_of_dbuf _ _ _ _ (by simp) (by simp)

theorem State.exposed_bodyLen (hin : s.frameLen ≤ s.dbufBytes) :
    s.exposed.bodyLen = s.frameLen - bodyOffset := by
  rw [← State.body_length, State.exposed_body hin, s.peek_length]

theorem State.exposed_inside (hin : s.frameLen ≤ s.dbufBytes) :
    bodyOffset + s.exposed.bodyLen ≤ s.exposed.dbufBytes := by
  have hsize := s.dbufBytes_bounds
  rw [State.exposed_bodyLen hin, s.exposed_dbufBytes]
  simp only [bodyOffset]
  omega

variable (hkey : s.keyv = true) (hin : s.frameLen ≤ s.dbufBytes) (hmin : minFrame ≤ s.frameLen)
  (hwell : WellFormedFrame s.frame s.token)
include hkey hin hmin hwell

/-- OPEN past its FDEC. -/
theorem exec_openFrame_past_fdec : exec .openFrame s =
    ((runDec s.exposed).andThen fun s2 => (runUnpad s2).andThen runStrip).finish := by
  rw [exec_openFrame_eq hkey, if_neg (Nat.not_lt.mpr hin), if_neg (Nat.not_lt.mpr hmin),
    if_neg (not_not_intro hwell)]

/-- OPEN of a well-formed frame whose body is not whole blocks. -/
theorem openFrame_stops_at_dec (halign : (s.frameLen - bodyOffset) % blockBytes ≠ 0) :
    exec .openFrame s = .next (s.exposed.failed .align 0x14) := by
  have hinside := State.exposed_inside hin
  rw [exec_openFrame_past_fdec hkey hin hmin hwell, runDec_eq, if_neg (by simp [hkey]), if_neg (by omega),
    State.exposed_bodyLen hin, if_pos halign]
  rfl

/-- OPEN of a well-formed frame of whole blocks decrypts the body, checks the padding, and then only lowers
BLEN. -/
theorem openFrame_decrypts (halign : (s.frameLen - bodyOffset) % blockBytes = 0)
    (hb : b = cbcDec s.key s.iv (s.peek bodyOffset (s.frameLen - bodyOffset))) :
    ∃ t, b.length = s.frameLen - bodyOffset ∧ s.exposed.BodyBecomes t b ∧
      exec .openFrame s = (if ¬GoodPadding b then .raised .badPad 0x12 t
        else .complete (t.setBlen (withoutSentinel (b.take (b.length - claimedPad b))).length) :
          CmdEnd).finish := by
  have hbody := State.exposed_body hin
  have hblocks : (s.peek bodyOffset (s.frameLen - bodyOffset)).length % 16 = 0 := by
    rwa [s.peek_length]
  obtain ⟨t, hrun, hplain⟩ :=
    (State.bodyBecomes_refl (State.exposed_inside hin)).runDec (by simpa using hkey) (by rwa [hbody])
  rw [hbody, s.exposed_key, s.exposed_iv, ← hb] at hplain
  have hlen : b.length = s.frameLen - bodyOffset := by rw [hb, cbcDec_length _ _ _ hblocks, s.peek_length]
  have hne : b.length ≠ 0 := by
    simp only [minFrame] at hmin
    simp only [hlen, bodyOffset]
    omega
  refine ⟨t, hlen, hplain, ?_⟩
  rw [exec_openFrame_past_fdec hkey hin hmin hwell, hrun, CmdEnd.andThen_complete,
    hplain.runUnpad_runStrip hne]

end Sys2Proof.Machine
end

section
/-! The registers and the bytes that SEAL and OPEN leave, from what their parts leave (spec/43_sequence.md R223,
R224). -/

namespace Sys2Proof.Machine

theorem frameHeader_length (devid stamp : Word) (token : Block) (body : List Byte) :
    (frameHeader devid stamp token body).length = 32 := by
  rw [frameHeader, List.length_append, frameHead_length, Vector.length_toList]

namespace State.BodyBecomes

variable {s t u : State} {b : List Byte}

/-- FENC's header in front of the body the parts before it made: one frame from the start of DBUF on. -/
theorem stores_framed (h : s.BodyBecomes t b)
    (hstores : t.Stores u 0 (frameHeader t.devid t.stamp t.token t.body)) :
    s.Stores u 0 (frameHeader s.devid s.stamp s.token b ++ b) := by
  rw [h.devid, h.stamp, h.token, h.body] at hstores
  refine State.Stores.prepend ?_ hstores
  rw [frameHeader_length]
  exact h.stores

theorem registers_framed (h : s.BodyBecomes t b) {x : Word} {d : Block}
    (hu : { u with dbuf := t.dbuf } = { t with flen := x, digest := d, busy := false, done := true }) :
    { u with dbuf := s.dbuf } = { s with
      blen := BitVec.ofNat 32 b.length, flen := x, digest := d, busy := false, done := true } := calc
  { u with dbuf := s.dbuf } = { { u with dbuf := t.dbuf } with dbuf := s.dbuf } := rfl
  _ = { { t with dbuf := s.dbuf } with flen := x, digest := d, busy := false, done := true } := by rw [hu]
  _ = _ := by rw [h.registers]

/-- A command that then writes no register but BLEN. -/
theorem registers_setBlen (h : s.BodyBecomes t b) (n : Nat) :
    { (t.setBlen n).finishDone with dbuf := s.dbuf } =
      { s with blen := BitVec.ofNat 32 n, busy := false, done := true } := calc
  _ = { { t with dbuf := s.dbuf } with blen := BitVec.ofNat 32 n, busy := false, done := true } := rfl
  _ = _ := by rw [h.registers]

end State.BodyBecomes

variable {s t : State} {b : List Byte}

theorem State.exposed_eq (s : State) : s.exposed =
    { s with blen := BitVec.ofNat 32 (s.flen.toNat - 32), digest := s.imageDigest } := by
  generalize hd : s.imageDigest = d
  rw [State.exposed, hd]
  rfl

/-- FDEC writes no byte of DBUF (R193). -/
theorem State.Stores.of_exposed {a : Nat} (h : s.exposed.Stores t a b) : s.Stores t a b := by
  rw [s.exposed_eq] at h
  exact h

theorem cbcEnc_withPadding_length (k iv : Block) (p : List Byte) :
    (cbcEnc k iv (withPadding p)).length = (withPadding p).length := by
  obtain ⟨-, -, hblocks, -⟩ := goodPadding_withPadding p
  exact cbcEnc_length k iv _ hblocks

end Sys2Proof.Machine
end

section
/-! The statements of spec/43_sequence.md on SEAL and OPEN. -/

namespace Sys2Proof.Machine

/-- Settles O37: SEAL ends as FENC of the ciphertext does, and FENC puts the header in front of it. -/
theorem sealBuildsTheFrame : Obligations.SealBuildsTheFrame := by
  intro s hkey hin hfit
  obtain ⟨t, hexec, hbody⟩ := sealFrame_ends_as_fenc hkey hin
  have hlen : t.blen.toNat = (withPadding (withSentinel s.body)).length :=
    hbody.bodyLen.trans (cbcEnc_withPadding_length _ _ _)
  obtain ⟨u, hfenc, hstores, hregs, -⟩ := fencBuildsTheFrame t (hbody.keyv.trans hkey)
    (Nat.le_sub_of_add_le' hbody.inside) (hlen ▸ hfit)
  have hdigest (p : List Byte) :
      frameDigest t.devid t.stamp t.token p = frameDigest s.devid s.stamp s.token p := by
    rw [hbody.devid, hbody.stamp, hbody.token]
  rw [hlen, hbody.body, hdigest] at hregs
  have hsealed := hbody.registers_framed hregs
  rw [cbcEnc_withPadding_length] at hsealed
  exact ⟨u, hexec.trans hfenc, hbody.stores_framed hstores, hsealed⟩

/-- Settles O38: SENT's checks, PAD's one that is left, and FENC's one that is left, each with the body as the
parts before it made it. -/
theorem sealErrors : Obligations.SealErrors := by
  intro s
  by_cases hkey : s.keyv = false
  · rw [if_pos hkey]
    exact exec_sealFrame_of_noKey hkey
  rw [if_neg hkey]
  replace hkey := eq_true_of_ne_false hkey
  refine failed_or_rest (exec_sealFrame_eq hkey) fun _ h => failed_or_rest h fun hroom _ => ?_
  split_ifs with hover hlong
  · obtain ⟨t, hexec, hbody⟩ := sealFrame_stops_at_pad hkey (Nat.not_lt.mp hroom) hover
    exact ⟨_, hexec, hbody.stores_failed _ _, hbody.registers_failed _ _⟩
  · obtain ⟨t, hexec, hbody⟩ := sealFrame_ends_as_fenc hkey (Nat.not_lt.mp hover)
    have hlen := hbody.bodyLen
    have hinside := hbody.inside
    have hregs := hbody.registers_failed .lenOvf 0x20
    rw [cbcEnc_withPadding_length] at hlen hregs
    have hfenc : exec .fenc t = .next (t.failed .lenOvf 0x20) := by
      rw [exec_of_run (i := .fenc) (runFenc_eq t), if_neg (by simp [hbody.keyv, hkey]), if_neg (by omega), hlen,
        if_pos hlong]
      rfl
    exact ⟨_, hexec.trans hfenc, hbody.stores_failed _ _, hregs⟩

/-- Settles O39: OPEN decrypts the exposed body; UNPAD and STRIP then only lower BLEN. -/
theorem openYieldsThePayload : Obligations.OpenYieldsThePayload := by
  intro s p hkey hmin hin hwell halign hp hgood
  obtain ⟨t, -, hbody, hexec⟩ := openFrame_decrypts hkey hin hmin hwell halign hp
  rw [if_neg (not_not_intro hgood)] at hexec
  have hregs := hbody.registers_setBlen (withoutSentinel (p.take (p.length - claimedPad p))).length
  rw [s.exposed_eq] at hregs
  exact ⟨_, hexec, hbody.stores.of_exposed, hregs⟩

/-- Settles O40: FDEC's checks, DEC's one that is left, and UNPAD's check of the decrypted body. -/
theorem openErrors : Obligations.OpenErrors := by
  intro s
  by_cases hkey : s.keyv = false
  · rw [if_pos hkey]
    exact exec_openFrame_of_noKey hkey
  rw [if_neg hkey]
  replace hkey := eq_true_of_ne_false hkey
  refine failed_or_rest (exec_openFrame_eq hkey) fun hin h => failed_or_rest h fun hmin h =>
    failed_or_rest h fun hwell _ => ?_
  replace hin := Nat.not_lt.mp hin
  replace hmin := Nat.not_lt.mp hmin
  replace hwell := not_not.mp hwell
  split_ifs with halign hgood
  · rw [openFrame_stops_at_dec hkey hin hmin hwell halign, s.exposed_eq]
  · obtain ⟨t, hlen, hbody, hexec⟩ := openFrame_decrypts hkey hin hmin hwell (not_not.mp halign)
      (b := cbcDec s.key s.iv (s.peek 32 (s.flen.toNat - 32))) rfl
    rw [if_pos hgood] at hexec
    have hregs := hbody.registers_failed .badPad 0x12
    rw [hlen, s.exposed_eq] at hregs
    exact ⟨_, hexec, (hbody.stores_failed _ _).of_exposed, hregs⟩

end Sys2Proof.Machine
end

section
/-! What a primitive past its checks does to the state, and what of a command's parts is performed when it ends
(spec/10_state.md R45, spec/43_sequence.md R223, R224, spec/60_exceptions.md R256, R257). -/

namespace Sys2Proof.Machine

/-- The primitive `i` in the state `s`, past all its checks, leaves `t`. -/
inductive Performs : Instr → State → State → Prop
  | nop {s : State} : Performs .nop s s
  | md5 {s : State} : Performs .md5 s (s.setDigest (Machine.md5 (s.peek s.hoff.toNat s.hlen.toNat)))
  | derive {s : State} : Performs .derive s (s.setKeys (Machine.md5 s.token.toList)
      (Machine.md5 ((Machine.md5 s.token.toList).toList ++ s.token.toList)))
  | pad {s : State} (hfit : bodyOffset + s.bodyLen + padLength s.bodyLen ≤ s.dbufBytes) :
      Performs .pad s s.padded
  | unpad {s : State} : Performs .unpad s (s.setBlen (s.bodyLen - claimedPad s.body))
  | enc {s : State} (hin : bodyOffset + s.bodyLen ≤ s.dbufBytes) (halign : s.bodyLen % blockBytes = 0) :
      Performs .enc s (s.poke bodyOffset (cbcEnc s.key s.iv s.body))
  | dec {s : State} (hin : bodyOffset + s.bodyLen ≤ s.dbufBytes) (halign : s.bodyLen % blockBytes = 0) :
      Performs .dec s (s.poke bodyOffset (cbcDec s.key s.iv s.body))
  | fenc {s : State} : Performs .fenc s (s.framedWith (frameDigest s.devid s.stamp s.token s.body))
  | fdec {s : State} (hin : s.frameLen ≤ s.dbufBytes) (hmin : minFrame ≤ s.frameLen) : Performs .fdec s s.exposed
  | sent {s : State} (hin : bodyOffset + s.bodyLen ≤ s.dbufBytes)
      (hfit : bodyOffset + (withSentinel s.body).length ≤ s.dbufBytes) : Performs .sent s s.sentineled
  | strip {s : State} : Performs .strip s s.stripped

variable {s t u : State} {i : Instr}

/-- A command that completes passed the check in front. -/
theorem past_check {p q : Prop} [Decidable p] {c : ErrCode} {op : Byte} {r : CmdEnd}
    (hr : ¬p → r = .complete t → q) (h : (if p then .raised c op s else r : CmdEnd) = .complete t) : q := by
  split_ifs at h with hp
  exact hr hp h

theorem Performs.of_complete (hu : Performs i s u) (h : CmdEnd.complete u = .complete t) : Performs i s t := by
  cases h
  exact hu

/-- A primitive that completes passed all its checks. -/
theorem performs_of_runOf (hseal : i ≠ .sealFrame) (hopen : i ≠ .openFrame) (h : runOf i s = .complete t) :
    Performs i s t := by
  cases i with
  | nop => exact Performs.nop.of_complete h
  | derive => exact Performs.derive.of_complete h
  | md5 => exact past_check (fun _ => Performs.md5.of_complete) ((runMd5_eq s).symm.trans h)
  | pad =>
    exact past_check (fun _ => past_check fun _ => past_check fun hfit =>
      (Performs.pad (Nat.not_lt.mp hfit)).of_complete) ((runPad_eq s).symm.trans h)
  | unpad =>
    exact past_check (fun _ => past_check fun _ => Performs.unpad.of_complete) ((runUnpad_eq s).symm.trans h)
  | enc =>
    exact past_check (fun _ => past_check fun hend => past_check fun halign =>
      (Performs.enc (State.body_inside hend) (not_not.mp halign)).of_complete) ((runEnc_eq s).symm.trans h)
  | dec =>
    exact past_check (fun _ => past_check fun hend => past_check fun halign =>
      (Performs.dec (State.body_inside hend) (not_not.mp halign)).of_complete) ((runDec_eq s).symm.trans h)
  | fenc =>
    exact past_check (fun _ => past_check fun _ => past_check fun _ => Performs.fenc.of_complete)
      ((runFenc_eq s).symm.trans h)
  | fdec =>
    exact past_check (fun _ => past_check fun hend => past_check fun hmin => past_check fun _ =>
      (Performs.fdec (Nat.not_lt.mp hend) (Nat.not_lt.mp hmin)).of_complete) ((runFdec_eq s).symm.trans h)
  | sent =>
    exact past_check (fun hend => past_check fun hfit =>
      (Performs.sent (State.body_inside hend) (Nat.not_lt.mp hfit)).of_complete) ((runSent_eq s).symm.trans h)
  | strip => exact past_check (fun _ => Performs.strip.of_complete) ((runStrip_eq_ite s).symm.trans h)
  | sealFrame => exact absurd rfl hseal
  | openFrame => exact absurd rfl hopen

/-- The primitives of the list, one after the other, each past all its checks. -/
inductive PerformsAll : List Instr → State → State → Prop
  | nil {s : State} : PerformsAll [] s s
  | cons {i : Instr} {is : List Instr} {s t u : State} (head : Performs i s t) (tail : PerformsAll is t u) :
      PerformsAll (i :: is) s u

/-- The pseudocode of the commands of the list, one after the other. -/
def runAll : List Instr → State → CmdEnd
  | [] => .complete
  | i :: is => fun s => (runOf i s).andThen (runAll is)

theorem runAll_cons (i : Instr) (is : List Instr) (s : State) :
    runAll (i :: is) s = (runOf i s).andThen (runAll is) := rfl

/-- The primitives a command is made of (R223, R224). -/
def partsOf : Instr → List Instr
  | .sealFrame => [.sent, .pad, .enc, .fenc]
  | .openFrame => [.fdec, .dec, .unpad, .strip]
  | i => [i]

theorem partsOf_primitive (i : Instr) : ∀ p ∈ partsOf i, p ≠ .sealFrame ∧ p ≠ .openFrame := by
  cases i <;> decide

/-- A sequence of primitives performs the first ones of them, and then all are performed or the next one raises a
named error. -/
theorem runAll_ends (is : List Instr) (his : ∀ i ∈ is, i ≠ .sealFrame ∧ i ≠ .openFrame) : ∀ s : State,
    ∃ performed rest u, is = performed ++ rest ∧ PerformsAll performed s u ∧
      (runAll is s = .complete u ∨ ∃ c op, c ≠ .none ∧ runAll is s = .raised c op u) := by
  induction is with
  | nil => exact fun s => ⟨[], [], s, rfl, .nil, .inl rfl⟩
  | cons i is ih =>
    intro s
    obtain ⟨hseal, hopen⟩ := his i List.mem_cons_self
    have hends := runOf_endsFrom s hseal hopen
    generalize hrun : runOf i s = r at hends
    cases hends with
    | @complete t =>
      obtain ⟨performed, rest, u, his, hall, hend⟩ := ih (fun i hi => his i (List.mem_cons_of_mem _ hi)) t
      refine ⟨i :: performed, rest, u, congrArg (i :: ·) his,
        .cons (performs_of_runOf hseal hopen hrun) hall, ?_⟩
      rwa [runAll_cons, hrun, CmdEnd.andThen_complete]
    | raised hc =>
      exact ⟨[], i :: is, s, rfl, .nil, .inr ⟨_, _, hc, by rw [runAll_cons, hrun, CmdEnd.andThen_raised]⟩⟩

/-- The key check of a composite fails, or the command runs its parts. -/
theorem exec_eq_runAll (i : Instr) (s : State) : (∃ op, exec i s = .next (s.failed .noKey op)) ∨
    exec i s = (runAll (partsOf i) s).finish := by
  have hsingle : exec i s = (runAll [i] s).finish := by
    rw [exec_eq_finish_runOf, runAll_cons, show runAll [] = CmdEnd.complete from rfl,
      CmdEnd.andThen_complete_right]
  cases i with
  | sealFrame =>
    cases hkey : s.keyv with
    | false => exact .inl ⟨_, exec_sealFrame_of_noKey hkey⟩
    | true => exact .inr (exec_sealFrame_of_keyv hkey)
  | openFrame =>
    cases hkey : s.keyv with
    | false => exact .inl ⟨_, exec_openFrame_of_noKey hkey⟩
    | true => exact .inr (exec_openFrame_of_keyv hkey)
  | _ => exact .inr hsingle

/-- Every command, from every state, performs the first of its parts, and then ends in success or in a named
error. -/
theorem exec_ends (i : Instr) (s : State) :
    ∃ performed rest u, partsOf i = performed ++ rest ∧ PerformsAll performed s u ∧
      (exec i s = .next u.finishDone ∨ ∃ c op, c ≠ .none ∧ exec i s = .next (u.failed c op)) := by
  obtain ⟨op, hexec⟩ | hexec := exec_eq_runAll i s
  · exact ⟨[], partsOf i, s, rfl, .nil, .inr ⟨.noKey, op, by decide, hexec⟩⟩
  · obtain ⟨performed, rest, u, hparts, hall, hrun⟩ := runAll_ends (partsOf i) (partsOf_primitive i) s
    refine ⟨performed, rest, u, hparts, hall, hrun.imp (fun h => ?_) ?_⟩
    · rw [hexec, h, CmdEnd.finish_complete]
    · rintro ⟨c, op, hc, h⟩
      exact ⟨c, op, hc, by rw [hexec, h]; rfl⟩

/-- `exec_ends`, from the state a command leaves. -/
theorem exec_next_cases (h : exec i s = .next t) :
    ∃ performed rest u, partsOf i = performed ++ rest ∧ PerformsAll performed s u ∧
      (t = u.finishDone ∨ ∃ c op, c ≠ .none ∧ t = u.failed c op) := by
  obtain ⟨performed, rest, u, hparts, hall, hend⟩ := exec_ends i s
  simp only [h, Host.Outcome.next.injEq] at hend
  exact ⟨performed, rest, u, hparts, hall, hend⟩

end Sys2Proof.Machine
end

section
/-! What the primitives leave unchanged of the registers, and so what each command does (spec/30_encoding.md R93):
a relation that every part keeps holds between the start and the end of the command. -/

namespace Sys2Proof.Machine

variable {s t u : State} {i : Instr}

/-- A reflexive and transitive relation that every part of a command keeps. -/
theorem PerformsAll.rel {R : State → State → Prop} {is : List Instr} (h : PerformsAll is s u)
    (hrefl : ∀ s, R s s) (htrans : ∀ s t u, R s t → R t u → R s u)
    (hstep : ∀ i ∈ is, ∀ s t, Performs i s t → R s t) : R s u := by
  induction h with
  | nil => exact hrefl _
  | cons head tail ih =>
    exact htrans _ _ _ (hstep _ List.mem_cons_self _ _ head)
      (ih fun i hi => hstep i (List.mem_cons_of_mem _ hi))

/-- A relation that every part of a command and its completion keep. -/
theorem exec_rel {R : State → State → Prop} (h : exec i s = .next t) (hrefl : ∀ s, R s s)
    (htrans : ∀ s t u, R s t → R t u → R s u) (hdone : ∀ s u, R s u → R s u.finishDone)
    (hfailed : ∀ s u c op, R s u → R s (u.failed c op))
    (hparts : ∀ p ∈ partsOf i, ∀ s t, Performs p s t → R s t) : R s t := by
  obtain ⟨performed, rest, u, his, hall, hend⟩ := exec_next_cases h
  have hkept : R s u := hall.rel hrefl htrans fun p hp => hparts p (his ▸ List.mem_append_left rest hp)
  obtain rfl | ⟨c, op, -, rfl⟩ := hend
  · exact hdone s u hkept
  · exact hfailed s u c op hkept

/-- What completion does not write and no part writes, no command writes. -/
theorem exec_keeps {α : Type} (f : State → α) (hdone : ∀ u : State, f u.finishDone = f u)
    (hfailed : ∀ (u : State) c op, f (u.failed c op) = f u)
    (hparts : ∀ p ∈ partsOf i, ∀ s t, Performs p s t → f t = f s) (h : exec i s = .next t) : f t = f s :=
  exec_rel (R := fun s t => f t = f s) h (fun _ => rfl) (fun _ _ _ h h' => h'.trans h)
    (fun _ u h => (hdone u).trans h) (fun _ u c op h => (hfailed u c op).trans h) hparts

/-- The state without what some command's pseudocode writes. -/
def State.unwritten (s : State) : State :=
  { s with
    keyv := false, key := zeroBlock, iv := zeroBlock, blen := 0, flen := 0, digest := zeroBlock, dbuf := [] }

theorem Performs.unwritten (h : Performs i s t) : t.unwritten = s.unwritten := by
  cases h with
  | md5 => simp [State.unwritten]
  | fenc => simp [State.unwritten, State.framedWith, State.fencImage]
  | fdec => simp [State.unwritten, State.exposed]
  | sent =>
    rw [State.sentineled]
    split_ifs <;> rfl
  | strip => rw [State.stripped_eq]; rfl
  | _ => rfl

theorem Performs.keyv (h : Performs i s t) (hi : i ≠ .derive) :
    t.keyv = s.keyv ∧ t.key = s.key ∧ t.iv = s.iv := by
  cases h with
  | derive => exact absurd rfl hi
  | md5 | fenc | fdec => simp
  | sent =>
    rw [State.sentineled]
    split_ifs <;> exact ⟨rfl, rfl, rfl⟩
  | strip => rw [State.stripped_eq]; exact ⟨rfl, rfl, rfl⟩
  | _ => exact ⟨rfl, rfl, rfl⟩

theorem Performs.digest (h : Performs i s t) (hi : i ∉ [Instr.md5, .fenc, .fdec]) : t.digest = s.digest := by
  cases h with
  | md5 | fenc | fdec => simp at hi
  | sent =>
    rw [State.sentineled]
    split_ifs <;> rfl
  | strip => rw [State.stripped_eq]; rfl
  | _ => rfl

theorem Performs.blen (h : Performs i s t) (hi : i ∉ [Instr.pad, .unpad, .fdec, .sent, .strip]) :
    t.blen = s.blen := by
  cases h with
  | pad | unpad | fdec | sent | strip => simp at hi
  | md5 => simp
  | fenc => simp [State.framedWith, State.fencImage]
  | _ => rfl

theorem Performs.flen (h : Performs i s t) (hi : i ≠ .fenc) : t.flen = s.flen := by
  cases h with
  | fenc => exact absurd rfl hi
  | md5 | fdec => simp [State.exposed]
  | sent =>
    rw [State.sentineled]
    split_ifs <;> rfl
  | strip => rw [State.stripped_eq]; rfl
  | _ => rfl

/-- The state without what some command or its completion writes. -/
def State.untouched (s : State) : State :=
  { s.unwritten with busy := false, done := false, err := false, errCode := .none, errOp := 0 }

theorem exec_untouched (h : exec i s = .next t) : t.untouched = s.untouched :=
  exec_keeps State.untouched (fun _ => rfl) (fun _ _ _ => rfl)
    (fun _ _ s t hp => by rw [State.untouched, hp.unwritten, State.untouched]) h

end Sys2Proof.Machine
end

section
/-! The statements of spec/10_state.md R41 and spec/30_encoding.md R93 on what the commands write. -/

namespace Sys2Proof.Machine

/-- Settles O9: completion writes BUSY and one of DONE and ERR, the parts write no flag, and only DERIVE's one
part writes KEYV. -/
theorem completionSetsDoneOrErr : Obligations.CompletionSetsDoneOrErr := by
  intro i s t h
  have hflags : t.busy = false ∧
      ((t.done = true ∧ t.err = s.err) ∨ (t.done = s.done ∧ t.err = true)) := by
    obtain ⟨performed, rest, u, -, hall, hend⟩ := exec_next_cases h
    have hkept : u.unwritten = s.unwritten := hall.rel (R := fun s t => t.unwritten = s.unwritten)
      (fun _ => rfl) (fun _ _ _ h h' => h'.trans h) fun _ _ _ _ hp => hp.unwritten
    obtain rfl | ⟨c, op, -, rfl⟩ := hend
    · exact ⟨rfl, .inl ⟨rfl, (congrArg State.err hkept :)⟩⟩
    · exact ⟨rfl, .inr ⟨(congrArg State.done hkept :), rfl⟩⟩
  have hkeyv : t.keyv = (s.keyv || decide (i = .derive)) := by
    by_cases hi : i = .derive
    · subst hi
      cases h
      simp
    · have hparts : .derive ∉ partsOf i := by revert hi; cases i <;> decide
      rw [decide_eq_false hi, Bool.or_false]
      exact exec_keeps State.keyv (fun _ => rfl) (fun _ _ _ => rfl)
        (fun p hp s t hstep => (hstep.keyv fun hd => hparts (hd ▸ hp)).1) h
  obtain ⟨hbusy, hresult⟩ := hflags
  have hkept := exec_untouched h
  exact ⟨hbusy, hresult, hkeyv, (congrArg State.ovr hkept :), (congrArg State.ie hkept :),
    (congrArg State.cmd hkept :)⟩

/-- Settles O11: no part writes a register outside the command's write column, and completion writes STATUS and
ERRINFO alone. -/
theorem commandsWriteTheirRegistersOnly : Obligations.CommandsWriteTheirRegistersOnly := by
  intro i s t h
  have hkept := exec_untouched h
  refine ⟨(congrArg State.token hkept :), (congrArg State.hoff hkept :), (congrArg State.hlen hkept :),
    (congrArg State.devid hkept :), (congrArg State.stamp hkept :), fun hi => ?_, fun hi => ?_, fun hi => ?_,
    fun hi => ?_, (congrArg State.params hkept :), (congrArg State.resets hkept :),
    (congrArg State.agenda hkept :), (congrArg State.answers hkept :), (congrArg State.host hkept :)⟩
  · have hparts : ∀ p ∈ partsOf i, p ≠ .derive := by revert hi; cases i <;> decide
    exact ⟨exec_keeps State.key (fun _ => rfl) (fun _ _ _ => rfl)
        (fun p hp _ _ hstep => (hstep.keyv (hparts p hp)).2.1) h,
      exec_keeps State.iv (fun _ => rfl) (fun _ _ _ => rfl)
        (fun p hp _ _ hstep => (hstep.keyv (hparts p hp)).2.2) h⟩
  · have hparts : ∀ p ∈ partsOf i, p ∉ [Instr.md5, .fenc, .fdec] := by revert hi; cases i <;> decide
    exact exec_keeps State.digest (fun _ => rfl) (fun _ _ _ => rfl)
      (fun p hp _ _ hstep => hstep.digest (hparts p hp)) h
  · have hparts : ∀ p ∈ partsOf i, p ∉ [Instr.pad, .unpad, .fdec, .sent, .strip] := by
      revert hi; cases i <;> decide
    exact exec_keeps State.blen (fun _ => rfl) (fun _ _ _ => rfl)
      (fun p hp _ _ hstep => hstep.blen (hparts p hp)) h
  · have hparts : ∀ p ∈ partsOf i, p ≠ .fenc := by revert hi; cases i <;> decide
    exact exec_keeps State.flen (fun _ => rfl) (fun _ _ _ => rfl)
      (fun p hp _ _ hstep => hstep.flen (hparts p hp)) h

end Sys2Proof.Machine
end

section
/-! What the primitives leave unchanged of DBUF (spec/20_memory.md R77). -/

namespace Sys2Proof.Machine

variable {s t u : State} {i : Instr}

/-- The body may have become longer; no byte but the added ones differs. -/
def State.ExtendsBody (s t : State) : Prop := s.bodyLen ≤ t.bodyLen ∧
  ∀ a, a < bodyOffset + s.bodyLen ∨ bodyOffset + t.bodyLen ≤ a → t.byte a = s.byte a

/-- The body may have become shorter; no byte outside the old one differs. -/
def State.StaysInBody (s t : State) : Prop := t.bodyLen ≤ s.bodyLen ∧
  ∀ a, a < bodyOffset ∨ bodyOffset + s.bodyLen ≤ a → t.byte a = s.byte a

/-- The body may have become longer; no byte after it differs. -/
def State.StaysBelowEnd (s t : State) : Prop := s.bodyLen ≤ t.bodyLen ∧
  ∀ a, bodyOffset + t.bodyLen ≤ a → t.byte a = s.byte a

/-- No byte after the frame header differs. -/
def State.StaysInHeader (s t : State) : Prop := ∀ a, bodyOffset ≤ a → t.byte a = s.byte a

theorem State.ExtendsBody.refl (s : State) : s.ExtendsBody s := ⟨le_rfl, fun _ _ => rfl⟩

theorem State.ExtendsBody.trans (s t u : State) (h : s.ExtendsBody t) (h' : t.ExtendsBody u) :
    s.ExtendsBody u := by
  obtain ⟨hlen, hbyte⟩ := h
  obtain ⟨hlen', hbyte'⟩ := h'
  exact ⟨hlen.trans hlen', fun a ha => (hbyte' a (by omega)).trans (hbyte a (by omega))⟩

theorem State.StaysInBody.refl (s : State) : s.StaysInBody s := ⟨le_rfl, fun _ _ => rfl⟩

theorem State.StaysInBody.trans (s t u : State) (h : s.StaysInBody t) (h' : t.StaysInBody u) :
    s.StaysInBody u := by
  obtain ⟨hlen, hbyte⟩ := h
  obtain ⟨hlen', hbyte'⟩ := h'
  exact ⟨hlen'.trans hlen, fun a ha => (hbyte' a (by omega)).trans (hbyte a ha)⟩

theorem State.StaysBelowEnd.refl (s : State) : s.StaysBelowEnd s := ⟨le_rfl, fun _ _ => rfl⟩

theorem State.StaysBelowEnd.trans (s t u : State) (h : s.StaysBelowEnd t) (h' : t.StaysBelowEnd u) :
    s.StaysBelowEnd u := by
  obtain ⟨hlen, hbyte⟩ := h
  obtain ⟨hlen', hbyte'⟩ := h'
  exact ⟨hlen.trans hlen', fun a ha => (hbyte' a ha).trans (hbyte a (by omega))⟩

theorem State.extendsBody_append (s : State) (bs : List Byte)
    (hfit : bodyOffset + (s.bodyLen + bs.length) ≤ s.dbufBytes) :
    s.ExtendsBody ((s.poke (bodyOffset + s.bodyLen) bs).setBlen (s.bodyLen + bs.length)) := by
  have hlen := (s.bodyBecomes_append bs hfit).bodyLen
  rw [List.length_append, s.body_length] at hlen
  refine ⟨by omega, fun a ha => ?_⟩
  rw [hlen] at ha
  exact (s.stores_poke (bodyOffset + s.bodyLen) bs).byte_outside (by omega)

theorem Performs.extendsBody (h : Performs i s t) (hi : i = .pad ∨ i = .sent) : s.ExtendsBody t := by
  cases h with
  | pad hfit =>
    have happend := s.extendsBody_append (padBytes (padLength s.bodyLen))
      (by rwa [padBytes_length, ← Nat.add_assoc])
    rwa [padBytes_length, ← State.padded] at happend
  | sent hin hfit =>
    rw [withSentinel] at hfit
    rw [State.sentineled]
    split_ifs at hfit ⊢ with habsent
    · rw [List.length_append, s.body_length] at hfit
      exact s.extendsBody_append [0x00] hfit
    · exact .refl s
  | _ => simp at hi

theorem State.setBlen_bodyLen_le (s : State) (n : Nat) : (s.setBlen n).bodyLen ≤ n := Nat.mod_le _ _

theorem State.staysInBody_poke {b : List Byte} (hlen : b.length = s.bodyLen) :
    s.StaysInBody (s.poke bodyOffset b) :=
  ⟨le_rfl, fun _ ha => (s.stores_poke bodyOffset b).byte_outside (hlen ▸ ha)⟩

theorem State.staysInBody_setBlen {n : Nat} (h : n ≤ s.bodyLen) : s.StaysInBody (s.setBlen n) :=
  ⟨(s.setBlen_bodyLen_le n).trans h, fun _ _ => rfl⟩

theorem withoutSentinel_length_le (p : List Byte) : (withoutSentinel p).length ≤ p.length := by
  rw [withoutSentinel]
  split_ifs <;> simp

theorem Performs.staysInBody (h : Performs i s t) (hi : i ∈ [Instr.enc, .dec, .unpad, .strip]) :
    s.StaysInBody t := by
  cases h with
  | enc _ halign =>
    exact State.staysInBody_poke ((cbcEnc_length _ _ _ (s.body_length ▸ halign)).trans s.body_length)
  | dec _ halign =>
    exact State.staysInBody_poke ((cbcDec_length _ _ _ (s.body_length ▸ halign)).trans s.body_length)
  | unpad => exact State.staysInBody_setBlen (Nat.sub_le _ _)
  | strip =>
    rw [State.stripped_eq]
    exact State.staysInBody_setBlen ((withoutSentinel_length_le _).trans s.body_length.le)
  | _ => simp at hi

theorem Performs.staysInHeader (h : Performs .fenc s t) : s.StaysInHeader t := by
  cases h
  refine fun a ha => (s.stores_framedWith _).byte_outside (.inr ?_)
  rwa [List.length_append, frameHead_length, Vector.length_toList]

theorem Performs.sameDbuf (h : Performs i s t) (hi : i ∈ [Instr.nop, .md5, .derive, .unpad, .fdec, .strip]) :
    s.SameDbuf t := by
  have hdbuf : t.dbuf = s.dbuf := by
    cases h with
    | nop | md5 | derive | unpad => simp
    | fdec => simp [State.exposed]
    | strip => simp [State.stripped_eq]
    | _ => simp at hi
  exact s.byte_congr t hdbuf (congrArg State.resets h.unwritten :)

theorem Performs.staysBelowEnd (h : Performs i s t) (hi : i ∈ partsOf .sealFrame) : s.StaysBelowEnd t := by
  have hextends (hi : i = .pad ∨ i = .sent) : s.StaysBelowEnd t := by
    obtain ⟨hlen, hbyte⟩ := h.extendsBody hi
    exact ⟨hlen, fun a ha => hbyte a (.inr ha)⟩
  have hlen (hi : i ∉ [Instr.pad, .unpad, .fdec, .sent, .strip]) : t.bodyLen = s.bodyLen :=
    congrArg BitVec.toNat (h.blen hi)
  simp only [partsOf, List.mem_cons, List.not_mem_nil, or_false] at hi
  rcases hi with rfl | rfl | rfl | rfl
  · exact hextends (.inr rfl)
  · exact hextends (.inl rfl)
  · obtain ⟨-, hbyte⟩ := h.staysInBody (by decide)
    have hsame := hlen (by decide)
    exact ⟨hsame.ge, fun a ha => hbyte a (.inr (hsame ▸ ha))⟩
  · exact ⟨(hlen (by decide)).ge, fun a ha => h.staysInHeader a (by omega)⟩

/-- FDEC writes no byte, and the parts of OPEN after it stay in the body it exposed. -/
theorem PerformsAll.openFrame_byte {performed rest : List Instr} (hparts : partsOf .openFrame = performed ++ rest)
    (h : PerformsAll performed s u) : ∀ a, a < bodyOffset ∨ s.frameLen ≤ a → u.byte a = s.byte a := by
  cases h with
  | nil => exact fun _ _ => rfl
  | @cons i is s t u head tail =>
    simp only [partsOf, List.cons_append, List.cons.injEq] at hparts
    obtain ⟨rfl, htail⟩ := hparts
    have hsame := head.sameDbuf (by decide)
    obtain ⟨-, hbyte⟩ : t.StaysInBody u := tail.rel .refl .trans fun i hi _ _ hstep =>
      hstep.staysInBody (List.mem_cons_of_mem _ (htail ▸ List.mem_append_left _ hi))
    cases head with
    | fdec hin hmin =>
      have hlen := State.exposed_bodyLen hin
      intro a ha
      exact (hbyte a (by omega)).trans (hsame a)

/-- Settles O12: each part stays in the bytes it may store, and completion stores none. -/
theorem commandsWriteTheirBytesOnly : Obligations.CommandsWriteTheirBytesOnly := by
  intro i s t h
  refine ⟨fun hi => ?_, fun hi => ?_, fun hi => ?_, fun hi => ?_, fun hi => ?_, fun hi => ?_⟩
  · have hparts : ∀ p ∈ partsOf i, p ∈ [Instr.nop, .md5, .derive, .unpad, .fdec, .strip] := by
      revert hi; cases i <;> decide
    exact exec_rel (R := State.SameDbuf) h (fun _ _ => rfl) (fun _ _ _ h h' a => (h' a).trans (h a))
      (fun _ _ h => h) (fun _ _ _ _ h => h) fun p hp _ _ hstep => hstep.sameDbuf (hparts p hp)
  · have hparts : ∀ p ∈ partsOf i, p = .pad ∨ p = .sent := by revert hi; cases i <;> decide
    exact (exec_rel h .refl .trans (fun _ _ h => h) (fun _ _ _ _ h => h)
      fun p hp _ _ hstep => hstep.extendsBody (hparts p hp)).2
  · have hparts : ∀ p ∈ partsOf i, p ∈ [Instr.enc, .dec, .unpad, .strip] := by revert hi; cases i <;> decide
    exact (exec_rel h .refl .trans (fun _ _ h => h) (fun _ _ _ _ h => h)
      fun p hp _ _ hstep => hstep.staysInBody (hparts p hp)).2
  · subst hi
    refine exec_rel (R := State.StaysInHeader) h (fun _ _ _ => rfl)
      (fun _ _ _ h h' a ha => (h' a ha).trans (h a ha)) (fun _ _ h => h) (fun _ _ _ _ h => h)
      fun p hp _ _ hstep => ?_
    obtain rfl := List.mem_singleton.mp hp
    exact hstep.staysInHeader
  · subst hi
    exact (exec_rel h .refl .trans (fun _ _ h => h) (fun _ _ _ _ h => h)
      fun p hp _ _ hstep => hstep.staysBelowEnd hp).2
  · subst hi
    obtain ⟨performed, rest, u, hparts, hall, hend⟩ := exec_next_cases h
    have hbyte := hall.openFrame_byte hparts
    obtain rfl | ⟨c, op, -, rfl⟩ := hend
    · exact hbyte
    · exact hbyte

end Sys2Proof.Machine
end

section
/-! The invariant under the operations of the engine and of the port (spec/10_state.md R28, R29, R36 to R38, R45,
spec/20_memory.md R60). -/

namespace Sys2Proof.Machine

namespace State.MemoryOk

variable {s t : State}

theorem of_dbuf (h : s.MemoryOk) (hd : t.dbuf = s.dbuf) (hp : t.params = s.params) : t.MemoryOk := by
  rwa [State.MemoryOk, hd, State.dbufBytes_of_params s t hp]

theorem poke {a : Nat} {bs : List Byte} (h : s.MemoryOk) (hfit : a + bs.length ≤ s.dbufBytes) :
    (s.poke a bs).MemoryOk := by
  obtain ⟨hwf, hwithin⟩ := h
  exact ⟨Memory.poke_wf bs _ a hwf, Memory.poke_within _ bs _ a hwithin hfit⟩

end State.MemoryOk

section Performed

variable {s t u : State} {i : Instr}

/-- The checks of each primitive keep its writes inside the buffer. -/
theorem Performs.memoryOk (h : Performs i s t) (hs : s.MemoryOk) : t.MemoryOk := by
  have hparams : t.params = s.params := (congrArg State.params h.unwritten :)
  cases h with
  | nop | md5 | derive | unpad => exact hs.of_dbuf (by simp) hparams
  | strip => exact hs.of_dbuf (by simp [State.stripped_eq]) hparams
  | fdec => exact hs.of_dbuf (by simp [State.exposed]) hparams
  | pad hfit => exact hs.poke (by rwa [padBytes_length])
  | enc hin halign =>
    exact hs.poke (by rwa [cbcEnc_length _ _ _ (s.body_length ▸ halign), s.body_length])
  | dec hin halign =>
    exact hs.poke (by rwa [cbcDec_length _ _ _ (s.body_length ▸ halign), s.body_length])
  | sent hin hfit =>
    rw [withSentinel] at hfit
    rw [State.sentineled]
    split_ifs at hfit ⊢
    · rw [List.length_append, s.body_length, ← Nat.add_assoc] at hfit
      exact hs.poke hfit
    · exact hs
  | fenc =>
    have hsize := s.dbufBytes_bounds
    have himage : s.fencImage.MemoryOk := hs.poke (by simp; omega)
    exact (himage.poke (a := slotOffset) (bs := (frameDigest s.devid s.stamp s.token s.body).toList)
      (by simp [slotOffset]; omega)).of_dbuf (by simp [State.framedWith]) (by simp [State.framedWith])

theorem Performs.keysDerived (h : Performs i s t) (hs : s.KeysDerived) : t.KeysDerived := by
  by_cases hi : i = .derive
  · subst hi
    cases h
    simp [State.KeysDerived]
  · obtain ⟨hkeyv, hkey, hiv⟩ := h.keyv hi
    have htoken : t.token = s.token := (congrArg State.token h.unwritten :)
    rwa [State.KeysDerived, hkeyv, hkey, hiv, htoken]

/-- The flags are not the parts' to write. -/
theorem Performs.inv (h : Performs i s t) (hs : s.Inv) : t.Inv := by
  have hkept := h.unwritten
  have hbusy : t.busy = s.busy := (congrArg State.busy hkept :)
  have hdone : t.done = s.done := (congrArg State.done hkept :)
  have herr : t.err = s.err := (congrArg State.err hkept :)
  have hcode : t.errCode = s.errCode := (congrArg State.errCode hkept :)
  have hop : t.errOp = s.errOp := (congrArg State.errOp hkept :)
  obtain ⟨hmemory, hresult, hpending, hnamed, hkeys⟩ := hs
  refine ⟨h.memoryOk hmemory, ?_, ?_, ?_, h.keysDerived hkeys⟩
  · rwa [State.OneResult, hdone, herr]
  · rwa [State.PendingClean, hbusy, hdone, herr, hcode, hop]
  · rwa [State.ErrorNamed, hdone, herr, hcode, hop]

theorem PerformsAll.inv {is : List Instr} (h : PerformsAll is s u) (hs : s.Inv) (hbusy : s.busy = true) :
    u.Inv ∧ u.busy = true :=
  h.rel (R := fun s u => s.Inv ∧ s.busy = true → u.Inv ∧ u.busy = true) (fun _ h => h)
    (fun _ _ _ h h' hs => h' (h hs))
    (fun _ _ _ _ hstep hs => ⟨hstep.inv hs.1, (congrArg State.busy hstep.unwritten :).trans hs.2⟩) ⟨hs, hbusy⟩

/-- Successful completion of a pending command, over the cleared ERR and ERRINFO (R45). -/
theorem State.Inv.finishDone (hs : s.Inv) (hbusy : s.busy = true) : s.finishDone.Inv := by
  obtain ⟨-, herr, hcode, hop⟩ := hs.pending hbusy
  exact {
    memory := hs.memory
    oneResult := by simp [herr]
    pending := by simp
    errorNamed := ⟨by simp [herr], by simp [hcode, hop]⟩
    keys := hs.keys }

/-- Completion of a pending command in error, over the cleared DONE (R250). -/
theorem State.Inv.failed (hs : s.Inv) (hbusy : s.busy = true) {c : ErrCode} (hc : c ≠ .none) (op : Byte) :
    (s.failed c op).Inv := by
  obtain ⟨hdone, -, -, -⟩ := hs.pending hbusy
  exact {
    memory := hs.memory
    oneResult := by simp [State.failed, hdone]
    pending := by simp [State.failed]
    errorNamed := ⟨fun _ => hc, by simp [State.failed, hdone]⟩
    keys := hs.keys }

theorem exec_inv (hs : s.Inv) (hbusy : s.busy = true) (h : exec i s = .next t) : t.Inv := by
  obtain ⟨performed, rest, u, -, hall, hend⟩ := exec_next_cases h
  obtain ⟨hu, hpending⟩ := hall.inv hs hbusy
  obtain rfl | ⟨c, op, hc, rfl⟩ := hend
  · exact hu.finishDone hpending
  · exact hu.failed hpending hc op

theorem engineTurn_inv (hs : s.Inv) (h : engineTurn s = .next t) : t.Inv := by
  obtain ⟨-, hturn⟩ | ⟨i, hbusy, -, hturn⟩ | ⟨-, hbusy, -, hturn⟩ := engineTurn_cases s
  · cases hturn.symm.trans h
    exact hs
  · exact exec_inv hs hbusy (hturn.symm.trans h)
  · cases hturn.symm.trans h
    exact hs.failed hbusy (by decide) _

end Performed

section Port

variable {s : State}

theorem State.inv_resetWith (p : Params) : (State.resetWith p).Inv where
  memory := ⟨rfl, rfl⟩
  oneResult := by simp [State.resetWith]
  pending := by simp [State.resetWith]
  errorNamed := ⟨by simp [State.resetWith], by simp [State.resetWith]⟩
  keys := by simp [State.resetWith]

theorem State.inv_hardReset (s : State) : s.hardReset.Inv where
  memory := ⟨rfl, rfl⟩
  oneResult := by simp
  pending := by simp
  errorNamed := ⟨by simp, by simp⟩
  keys := by simp

namespace State.Inv

theorem accept (hs : s.Inv) (w : Word) : (s.accept w).Inv where
  memory := hs.memory
  oneResult := by simp
  pending := by simp
  errorNamed := ⟨by simp, by simp⟩
  keys := hs.keys

/-- The acknowledgement only clears DONE and ERR (R261). -/
theorem writeStatus (hs : s.Inv) (v : Word) : (s.writeStatus v).Inv where
  memory := hs.memory
  oneResult := fun h => hs.oneResult ⟨Bool.and_elim_left h.1, Bool.and_elim_left h.2⟩
  pending := fun h => by
    obtain ⟨hdone, herr, hcode⟩ := hs.pending h
    exact ⟨by simp [hdone], by simp [herr], hcode⟩
  errorNamed := by
    obtain ⟨herr, hdone⟩ := hs.errorNamed
    exact ⟨fun h => herr (Bool.and_elim_left h), fun h => hdone (Bool.and_elim_left h)⟩
  keys := hs.keys

theorem setOpReg (hs : s.Inv) (r : OpReg) (v : Word) : (s.setOpReg r v).Inv := by
  obtain ⟨hmemory, hresult, hpending, hnamed, hkeys⟩ := hs
  refine ⟨hmemory.of_dbuf (by simp) (by simp), ?_, ?_, ?_, ?_⟩
  · rwa [State.OneResult, State.setOpReg_done, State.setOpReg_err]
  · simpa [State.PendingClean] using hpending
  · simpa [State.ErrorNamed] using hnamed
  · simpa [State.KeysDerived] using hkeys

/-- A TOKEN write clears KEYV with the token it changes (R36). -/
theorem writeToken (hs : s.Inv) (j : Nat) (bs : List Byte) : (s.writeToken j bs).Inv where
  memory := hs.memory
  oneResult := hs.oneResult
  pending := hs.pending
  errorNamed := hs.errorNamed
  keys := fun h => by simp at h

theorem poke (hs : s.Inv) {a : Nat} {bs : List Byte} (hfit : a + bs.length ≤ s.dbufBytes) :
    (s.poke a bs).Inv where
  memory := hs.memory.poke hfit
  oneResult := hs.oneResult
  pending := hs.pending
  errorNamed := hs.errorNamed
  keys := hs.keys

/-- IE, OVR and the model's own fields are not in the invariant. -/
theorem setOther (hs : s.Inv) (ie ovr : Bool) (agenda : List Turn) (answers : List Answer) (host : HostProgram) :
    { s with ie, ovr, agenda, answers, host }.Inv :=
  ⟨hs.memory, hs.oneResult, hs.pending, hs.errorNamed, hs.keys⟩

theorem setAgenda (hs : s.Inv) (ts : List Turn) : (s.setAgenda ts).Inv := hs.setOther _ _ _ _ _

theorem addAnswer (hs : s.Inv) (a : Answer) : (s.addAnswer a).Inv := hs.setOther _ _ _ _ _

theorem setHost (hs : s.Inv) (p : HostProgram) : (s.setHost p).Inv := hs.setOther _ _ _ _ _

theorem writeCmd (hs : s.Inv) (w : Word) : (s.writeCmd w).Inv := by
  cases hbusy : s.busy with
  | true => rw [s.writeCmd_busy w hbusy]; exact hs.setOther _ _ _ _ _
  | false => rw [s.writeCmd_idle w hbusy]; exact hs.accept w

theorem writeCtrl (hs : s.Inv) (v : Word) : (s.writeCtrl v).Inv := by
  cases hsrst : v.getLsbD 1 with
  | true => rw [s.writeCtrl_reset v hsrst]; exact s.inv_hardReset
  | false => rw [s.writeCtrl_ie v hsrst]; exact hs.setOther _ _ _ _ _

end State.Inv

/-- The DBUF window begins at 0x10000 (R40). -/
theorem regionOf_eq_dbuf {off i : Nat} (h : regionOf off = .dbuf i) : 0x10000 ≤ off ∧ i = off - 0x10000 := by
  have hword : wordRegion (off / 4) ≠ .dbuf i := by
    unfold wordRegion
    split <;> simp
  unfold regionOf at h
  split_ifs at h
  · exact absurd h hword
  · exact ⟨by omega, (Region.dbuf.inj h).symm⟩

theorem State.Inv.applyAccess (hs : s.Inv) (a : Access) : (applyAccess a s).Inv := by
  obtain hsame | ⟨w, off, v, -, hperm, hwrite⟩ := applyAccess_cases a s
  · rwa [hsame]
  · rw [hwrite]
    cases hregion : regionOf off with
    | ctrl => exact hs.writeCtrl v
    | cmd => exact hs.writeCmd v
    | status => exact hs.writeStatus v
    | operand r => exact hs.setOpReg r v
    | token j => exact hs.writeToken j _
    | dbuf j =>
      obtain ⟨hlo, hj⟩ := regionOf_eq_dbuf hregion
      have hfit := permitted_dbuf s w off hperm hlo
      exact hs.poke (by rw [List.length_take]; omega)
    | id | errinfo | reserved | key | iv | digest => exact hs

theorem State.Inv.hostAccess (hs : s.Inv) (a : Access) : (hostAccess a s).Inv :=
  (hs.applyAccess a).addAnswer _

theorem State.Inv.lineTurn (hs : s.Inv) : (lineTurn s).Inv := by
  obtain h | ⟨a, p, h⟩ | ⟨p, h⟩ := lineTurn_cases s
  · rwa [h]
  · rw [h]
    exact (hs.hostAccess a).setHost p
  · rw [h]
    exact hs.setHost p

end Port

end Sys2Proof.Machine
end

section
/-! The statements about every step (spec/10_state.md R45, spec/20_memory.md R71, R78,
spec/70_reset_and_hazards.md R290 to R292). -/

namespace Sys2Proof.Machine

variable {s t : State}

theorem takeTurn_inv (turn : Turn) (hs : s.Inv) (h : takeTurn turn s = .next t) : t.Inv := by
  cases turn with
  | engine => exact engineTurn_inv hs h
  | line => cases h; exact hs.lineTurn
  | access a => cases h; exact hs.hostAccess a
  | reset => cases h; exact s.inv_hardReset

/-- Settles O58: after reset nothing is written, pending or keyed. -/
theorem resetMeetsTheInvariant : Obligations.ResetMeetsTheInvariant :=
  ⟨State.inv_resetWith _, State.inv_resetWith⟩

/-- Settles O59: each turn keeps the invariant, and taking it from the agenda does not touch it. -/
theorem stepKeepsTheInvariant : Obligations.StepKeepsTheInvariant := by
  intro s t hs h
  obtain ⟨turn, ts, -, hstep⟩ | ⟨-, -, hstep⟩ | ⟨-, -, -, hstep⟩ | ⟨-, -, -, hstep⟩ := step_cases s
  · exact takeTurn_inv turn (hs.setAgenda ts) (hstep.symm.trans h)
  · exact takeTurn_inv .engine hs (hstep.symm.trans h)
  · exact takeTurn_inv .line hs (hstep.symm.trans h)
  · cases hstep.symm.trans h
    exact hs

theorem exec_next (i : Instr) (s : State) : ∃ t, exec i s = .next t := by
  obtain ⟨-, -, u, -, -, hend | ⟨c, op, -, hend⟩⟩ := exec_ends i s
  · exact ⟨_, hend⟩
  · exact ⟨_, hend⟩

theorem takeTurn_next (turn : Turn) (s : State) : ∃ t, takeTurn turn s = .next t := by
  cases turn with
  | engine =>
    obtain ⟨-, h⟩ | ⟨i, -, -, h⟩ | ⟨-, -, -, h⟩ := engineTurn_cases s
    · exact ⟨_, h⟩
    · obtain ⟨t, hexec⟩ := exec_next i s
      exact ⟨t, h.trans hexec⟩
    · exact ⟨_, h⟩
  | line | access | reset => exact ⟨_, rfl⟩

/-- Settles O60: the host's turns and a reset always answer a next state, and so does every command. -/
theorem stepNeverStops : Obligations.StepNeverStops := by
  intro s
  obtain ⟨turn, ts, -, h⟩ | ⟨-, -, h⟩ | ⟨-, -, -, h⟩ | ⟨-, -, -, h⟩ := step_cases s
  · obtain ⟨t, ht⟩ := takeTurn_next turn (s.setAgenda ts)
    exact ⟨t, h.trans ht⟩
  · obtain ⟨t, ht⟩ := takeTurn_next .engine s
    exact ⟨t, h.trans ht⟩
  · exact ⟨_, h⟩
  · exact ⟨_, h⟩

/-- The engine's turn on a word that is a command (R45). -/
theorem engineTurn_of_decode {i : Instr} (hbusy : s.busy = true) (hdecode : decode s.cmd = .ok i) :
    engineTurn s = exec i s := by
  rw [engineTurn, if_pos hbusy, engineStep, State.fetchWord, hdecode]

/-- Settles O6: in each of the three cases the step is the engine's turn. -/
theorem stepRunsDecodedCommand : Obligations.StepRunsDecodedCommand := by
  refine fun s i => ⟨fun ts hagenda hbusy hdecode => ?_, fun hagenda hbusy hdecode => ?_, fun w hdecode => ?_⟩
  · rw [step_of_agenda s _ ts hagenda]
    exact engineTurn_of_decode (s := s.setAgenda ts) hbusy hdecode
  · rw [step_of_pending s hagenda hbusy]
    exact engineTurn_of_decode hbusy hdecode
  · have hword : BitVec.ofNat 32 (w % 2 ^ 32) = BitVec.ofNat 32 w := by
      rw [← BitVec.toNat_inj, BitVec.toNat_ofNat, BitVec.toNat_ofNat, Nat.mod_mod]
    rw [State.withFetchWord, hword, step_of_agenda _ .engine s.agenda rfl]
    exact engineTurn_of_decode (s := s.accept (BitVec.ofNat 32 w)) rfl hdecode

/-- Settles O7: the cases of `nextTurn` and of `takeTurn`. -/
theorem stepServesThePortInOrder : Obligations.StepServesThePortInOrder := fun s =>
  ⟨fun _ ts h => step_of_agenda s _ ts h, fun ts h => step_of_agenda s _ ts h,
    fun ts h => step_of_agenda s _ ts h,
    fun ts h hidle => (step_of_agenda s _ ts h).trans (engineTurn_of_idle (s.setAgenda ts) hidle),
    fun h hidle => step_of_program s h hidle, fun h hidle => step_of_idle s h hidle⟩

end Sys2Proof.Machine
end

section
/-! The port by its regions: which accesses of data state an idle engine permits, and the lanes of the byte
regions (spec/10_state.md R24 to R39, spec/20_memory.md R61, R63 to R65). -/

namespace Sys2Proof.Machine

variable {s : State} {w : Width} {off i : Nat}

/-- An idle engine permits each aligned access from TOKEN on that does not pass the buffer's end. -/
theorem permitted_bytes (hidle : s.busy = false) (hlo : 0x40 ≤ off) (halign : off % widthBytes w = 0)
    (hin : ¬(0x10000 ≤ off ∧ s.dbufBytes < off - 0x10000 + widthBytes w)) : permitted s w off = true := by
  rw [permitted_iff, RefusedAccess, hidle]
  simp only [not_or]
  exact ⟨not_not_intro halign, by omega, hin, by simp⟩

/-- The offset of an operand register (R24). -/
def operandOffset : OpReg → Nat
  | .blen => 0x014
  | .flen => 0x018
  | .hoff => 0x01C
  | .hlen => 0x020
  | .devid => 0x024
  | .stamp => 0x028

theorem regionOf_operand (r : OpReg) : regionOf (operandOffset r) = .operand r := by
  cases r <;> rfl

theorem permitted_operand (hidle : s.busy = false) (r : OpReg) : permitted s .w32 (operandOffset r) = true := by
  rw [permitted_iff, RefusedAccess, hidle]
  cases r <;> simp [operandOffset, widthBytes]

theorem answerOf_read_operand (hidle : s.busy = false) (r : OpReg) :
    answerOf (.read .w32 (operandOffset r)) s = .data (s.opReg r) := by
  rw [answerOf_read s _ _ (permitted_operand hidle r), regionOf_operand]
  rfl

theorem applyAccess_write_operand (hidle : s.busy = false) (r : OpReg) (v : Word) :
    applyAccess (.write .w32 (operandOffset r) v) s = s.setOpReg r v := by
  rw [applyAccess_write _ _ v s (permitted_operand hidle r), regionOf_operand]
  rfl

theorem leWord_one (x : Byte) : leWord [x] = x.setWidth 32 := by simp [leWord]

theorem leWord_two (x y : Byte) : leWord [x, y] = x.setWidth 32 ||| y.setWidth 32 <<< 8 := by simp [leWord]

theorem blockBytesAt_succ (b : Block) (n : Nat) (h : i < 16) :
    blockBytesAt b i (n + 1) = b[i] :: blockBytesAt b (i + 1) n := by
  have hlen : i < b.toList.length := by simpa using h
  rw [blockBytesAt, List.drop_eq_getElem_cons hlen, List.take_succ_cons, blockBytesAt, Vector.getElem_toList]

theorem blockBytesAt_zero (b : Block) (i : Nat) : blockBytesAt b i 0 = [] := rfl

/-- A 16-byte region that reads as bytes of `b` does so at each width (R61). -/
theorem State.readsBytes_of_region {base : Nat} {b : Block} {region : Nat → Region} (hidle : s.busy = false)
    (hbase : 0x40 ≤ base ∧ base ≤ 0x70 ∧ base % 4 = 0) (hregion : ∀ i, i < 16 → regionOf (base + i) = region i)
    (hread : ∀ w i, readRegion s w (region i) = leWord (blockBytesAt b i (widthBytes w))) :
    s.ReadsBytes base b := by
  obtain ⟨hlo, hhi, halign⟩ := hbase
  have hanswer (w : Width) (i : Nat) (hi : i < 16) (hw : (base + i) % widthBytes w = 0) :
      answerOf (.read w (base + i)) s = .data (leWord (blockBytesAt b i (widthBytes w))) := by
    rw [answerOf_read s w _ (permitted_bytes hidle (by omega) hw (by omega)), hregion i hi, hread]
  refine ⟨fun j => ?_, fun j => ?_, fun j => ?_⟩
  · rw [hanswer .w8 _ (by omega) (Nat.mod_one _), widthBytes, blockBytesAt_succ _ _ (by omega),
      blockBytesAt_zero, leWord_one]
    rfl
  · rw [hanswer .w16 _ (by omega) (by simp only [widthBytes]; omega), widthBytes,
      blockBytesAt_succ _ _ (by omega), blockBytesAt_succ _ _ (by omega), blockBytesAt_zero, leWord_two]
  · rw [hanswer .w32 _ (by omega) (by simp only [widthBytes]; omega), widthBytes,
      blockBytesAt_succ _ _ (by omega), blockBytesAt_succ _ _ (by omega), blockBytesAt_succ _ _ (by omega),
      blockBytesAt_succ _ _ (by omega), blockBytesAt_zero]
    rfl

theorem regionOf_key (h : i < 16) : regionOf (0x050 + i) = .key i := by
  unfold regionOf
  rw [if_neg (by omega), if_neg (by omega), if_pos (by omega), Nat.add_sub_cancel_left]

theorem regionOf_iv (h : i < 16) : regionOf (0x060 + i) = .iv i := by
  unfold regionOf
  rw [if_neg (by omega), if_neg (by omega), if_neg (by omega), if_pos (by omega), Nat.add_sub_cancel_left]

theorem regionOf_digest (h : i < 16) : regionOf (0x070 + i) = .digest i := by
  unfold regionOf
  rw [if_neg (by omega), if_neg (by omega), if_neg (by omega), if_neg (by omega), if_pos (by omega),
    Nat.add_sub_cancel_left]

/-- The lanes of a write: lane `d` is data bits `8d+7 .. 8d` (R61). -/
theorem leBytes_take_getD (v : Word) {d n : Nat} (hd : d < n) (hn : n ≤ 4) :
    ((leBytes v).take n).getD d 0 = v.extractLsb' (8 * d) 8 := by
  rw [List.getD_eq_getElem?_getD, List.getElem?_take, if_pos hd]
  have hd4 : d < 4 := by omega
  interval_cases d <;> rfl

theorem leBytes_take_length (v : Word) (w : Width) : ((leBytes v).take (widthBytes w)).length = widthBytes w := by
  cases w <;> rfl

/-- An access of the DBUF window by an idle engine: its data are the bytes read and the lanes stored. -/
theorem dbuf_access (hidle : s.busy = false) (halign : i % widthBytes w = 0)
    (hfit : i + widthBytes w ≤ s.dbufBytes) :
    answerOf (.read w (0x10000 + i)) s = .data (leWord (s.peek i (widthBytes w))) ∧
      ∀ v : Word, ∃ t, applyAccess (.write w (0x10000 + i) v) s = t ∧
        s.Stores t i ((leBytes v).take (widthBytes w)) ∧ { t with dbuf := s.dbuf } = s := by
  have hperm : permitted s w (0x10000 + i) = true :=
    permitted_bytes hidle (by omega) (by cases w <;> simp only [widthBytes] at * <;> omega) (by omega)
  refine ⟨by rw [answerOf_read s w _ hperm, regionOf_dbuf]; rfl, fun v => ⟨_, rfl, ?_⟩⟩
  rw [applyAccess_write w _ v s hperm, regionOf_dbuf]
  exact ⟨s.stores_poke _ _, rfl⟩

end Sys2Proof.Machine
end

section
/-! The statements of spec/10_state.md and spec/20_memory.md on the register window. -/

namespace Sys2Proof.Machine

/-- Settles O45: a permitted read answers with its region's data, and no read has an effect. -/
theorem windowReads : Obligations.WindowReads := by
  intro s
  refine ⟨fun w off => applyAccess_read w off s, answerOf_read_id s, ?_, answerOf_read_cmd s, ?_, fun hidle => ?_⟩
  · exact answerOf_read s .w32 0x004 (permitted_control s 0x004 rfl (by decide))
  · exact answerOf_read s .w32 0x010 (permitted_control s 0x010 rfl (by decide))
  · have hread := answerOf_read_operand hidle
    refine ⟨hread .blen, hread .flen, hread .hoff, hread .hlen, hread .devid, hread .stamp,
      fun w i hi halign => ?_, ?_, ?_, ?_⟩
    · have hperm : permitted s w (0x040 + i) = true :=
        permitted_bytes hidle (by omega) (by cases w <;> simp only [widthBytes] at * <;> omega) (by omega)
      rw [answerOf_read s w _ hperm, regionOf_token _ (by omega) (by omega)]
      rfl
    · exact State.readsBytes_of_region hidle (by decide) (fun _ => regionOf_key) fun _ _ => rfl
    · exact State.readsBytes_of_region hidle (by decide) (fun _ => regionOf_iv) fun _ _ => rfl
    · exact State.readsBytes_of_region hidle (by decide) (fun _ => regionOf_digest) fun _ _ => rfl

/-- Settles O46: STATUS reads as `statusWord`, and the two writes are `writeStatus` and `writeCtrl`. -/
theorem statusReadsAndClears : Obligations.StatusReadsAndClears := by
  intro s
  refine ⟨⟨s.statusWord, answerOf_read s .w32 0x00C (permitted_control s 0x00C rfl (by decide)), ?_⟩,
    applyAccess_write_status s, fun v hsrst => ?_⟩
  · have hbit := s.statusWord_getLsbD
    refine ⟨(hbit 0 (by decide)).trans (by simp), (hbit 1 (by decide)).trans (by simp),
      (hbit 2 (by decide)).trans (by simp), (hbit 3 (by decide)).trans (by simp),
      (hbit 4 (by decide)).trans (by simp), s.statusWord_irq, fun n hn => ?_⟩
    by_cases h32 : n < 32
    · rw [hbit n h32]
      simp (disch := omega) [Nat.ne_of_lt]
    · exact BitVec.getLsbD_of_ge _ _ (by omega)
  · rw [applyAccess_write_ctrl, s.writeCtrl_ie v hsrst]
    rfl

/-- Settles O48: an idle engine's operand registers are written and read whole, and no command's write column
has HOFF, HLEN, DEVID or STAMP. -/
theorem operandRegistersReadBack : Obligations.OperandRegistersReadBack := by
  refine ⟨fun p r => by cases r <;> rfl, fun s v hidle => ?_, fun i s t h => ?_⟩
  · have hwrite (r : OpReg) := applyAccess_write_operand hidle r v
    have hread (r : OpReg) : answerOf (.read .w32 (operandOffset r)) (s.setOpReg r v) = .data v := by
      rw [answerOf_read_operand (by rw [State.setOpReg_busy, hidle]), State.opReg_setOpReg, if_pos rfl]
    exact ⟨hwrite .blen, hwrite .flen, hwrite .hoff, hwrite .hlen, hwrite .devid, hwrite .stamp,
      hread .blen, hread .flen, hread .hoff, hread .hlen, hread .devid, hread .stamp⟩
  · have hkept := exec_untouched h
    exact ⟨(congrArg State.hoff hkept :), (congrArg State.hlen hkept :), (congrArg State.devid hkept :),
      (congrArg State.stamp hkept :)⟩

/-- Settles O49: each width is one case of the window's access. -/
theorem dbufByteLanes : Obligations.DbufByteLanes := by
  intro s i hidle
  refine ⟨fun hfit => ?_, fun halign hfit => ?_, fun halign hfit => dbuf_access hidle halign hfit⟩
  · have h := dbuf_access (w := .w8) hidle (Nat.mod_one _) hfit
    rwa [show s.peek i (widthBytes .w8) = [s.byte i] from rfl, leWord_one] at h
  · have h := dbuf_access (w := .w16) hidle halign hfit
    rwa [show s.peek i (widthBytes .w16) = [s.byte i, s.byte (i + 1)] from rfl, leWord_two] at h

/-- The regions a write is ignored in, by their offsets (R25, R29, R37 to R39). -/
theorem writeRegion_readOnly (s : State) (w : Width) (v : Word) {off : Nat}
    (h : off < 0x004 ∨ (0x010 ≤ off ∧ off < 0x014) ∨ (0x050 ≤ off ∧ off < 0x080)) :
    writeRegion s w v (regionOf off) = s := by
  rcases h with hid | ⟨hlo, hhi⟩ | ⟨hlo, hhi⟩
  · rw [regionOf_word off (by omega), Nat.div_eq_of_lt hid]
    rfl
  · rw [regionOf_word off (by omega), show off / 4 = 4 by omega]
    rfl
  · unfold regionOf
    rw [if_neg (by omega), if_neg (by omega)]
    split_ifs <;> rfl

/-- Settles O51: a permitted write there is ignored, and a refused one has no effect anywhere. -/
theorem readOnlyRegistersIgnoreWrites : Obligations.ReadOnlyRegistersIgnoreWrites := by
  intro s w off v h
  cases hperm : permitted s w off with
  | true => rw [applyAccess_write w off v s hperm, writeRegion_readOnly s w v h]
  | false => exact applyAccess_refused w off v s hperm

/-- Settles O52: the write is `writeToken` on the access's lanes. -/
theorem tokenWrite : Obligations.TokenWrite := by
  intro s w i v hidle hi halign
  have hw : widthBytes w ≤ 4 := by cases w <;> decide
  have hperm : permitted s w (0x040 + i) = true :=
    permitted_bytes hidle (by omega) (by cases w <;> simp only [widthBytes] at * <;> omega) (by omega)
  refine ⟨s.writeToken i ((leBytes v).take (widthBytes w)), ?_, rfl, fun j => ?_, rfl⟩
  · rw [applyAccess_write w _ v s hperm, regionOf_token _ (by omega) (by omega), Nat.add_sub_cancel_left]
    rfl
  · refine (s.writeToken_getElem i _ j.val j.isLt).trans ?_
    rw [leBytes_take_length]
    split_ifs with hj
    · exact leBytes_take_getD v (by omega) hw
    · rfl

/-- Settles O54: the TOKEN region reads as 0, and no other answer looks at TOKEN. -/
theorem tokenIsNotReadable : Obligations.TokenIsNotReadable := by
  intro s x a
  cases a with
  | write w off v => rfl
  | read w off =>
    have hregion (r : Region) : readRegion { s with token := x } w r = readRegion s w r := by cases r <;> rfl
    rw [answerOf, hregion]
    rfl

end Sys2Proof.Machine
end

section
/-! One line of a host program (spec/30_encoding.md R95, spec/20_memory.md R66, spec/70_reset_and_hazards.md R302),
and the statements about it. -/

namespace Sys2Proof.Machine

variable {s : State}

theorem lineTurn_of_standsAt {k : Nat} {l : Line} (hrun : s.host.faulted = false) (h : s.host.StandsAt k l) :
    lineTurn s = hostLine l s := by
  rw [lineTurn, hrun, s.host.nextLine_of_standsAt k l h]

theorem lineTurn_of_faulted (h : s.host.faulted = true) : lineTurn s = s := by
  rw [lineTurn, h]

theorem lineTurn_of_end (h : s.host.nextLine = none) : lineTurn s = s := by
  rw [lineTurn, h]
  cases s.host.faulted <;> rfl

/-- The host program is not the port's to write. -/
theorem applyAccess_host (a : Access) (s : State) : (applyAccess a s).host = s.host := by
  obtain hsame | ⟨w, off, v, -, -, hwrite⟩ := applyAccess_cases a s
  · rw [hsame]
  · rw [hwrite]
    cases regionOf off with
    | ctrl => exact (apply_ite State.host _ _ _).trans (ite_self _)
    | cmd => exact (apply_ite State.host _ _ _).trans (ite_self _)
    | operand r => exact s.setOpReg_host r v
    | id | status | errinfo | reserved | token | key | iv | digest | dbuf => rfl

/-- An access line is one access of the port; the rest of the state is the program's own place. -/
theorem lineAccess_engine (a : Access) (name : Option String) (s : State) :
    { lineAccess a name s with host := s.host } = hostAccess a s := by
  have hhost : (hostAccess a s).host = s.host := applyAccess_host a s
  rw [← hhost]
  rfl

theorem lineAccess_host (a : Access) (name : Option String) (s : State) :
    (lineAccess a name s).host = s.host.afterAccess (answerOf a s) name := rfl

/-- Only a bus error makes the run a faulted run (R302). -/
theorem HostProgram.afterAccess_faulted_iff {h : HostProgram} (hrun : h.faulted = false) (a : Answer)
    (name : Option String) : (h.afterAccess a name).faulted = true ↔ a = .busError := by
  cases a with
  | busError => simp [HostProgram.afterAccess, HostProgram.stop]
  | written => simp [HostProgram.afterAccess, HostProgram.goto, hrun]
  | data v => cases name <;> simp [HostProgram.afterAccess, HostProgram.goto, hrun]

/-- Settles O56: an access line is `lineAccess`, and the program takes the answer. -/
theorem programLineIsOneAccess : Obligations.ProgramLineIsOneAccess := by
  intro s
  refine ⟨fun k l a hrun hstands hl => ?_, fun k w off v hrun hstands hanswer => ?_,
    fun k w off n v hrun hstands hanswer => ?_, lineTurn_of_faulted⟩
  · obtain ⟨name, hline⟩ : ∃ name, lineTurn s = lineAccess a name s := by
      rw [lineTurn_of_standsAt hrun hstands]
      rcases hl with ⟨w, off, v, rfl, rfl⟩ | ⟨w, off, n, rfl, rfl⟩
      · exact ⟨_, rfl⟩
      · exact ⟨_, rfl⟩
    rw [hline]
    refine ⟨lineAccess_engine a name s, HostProgram.afterAccess_faulted_iff hrun _ name, fun hbus => ?_⟩
    rw [lineAccess_host, hbus]
    rfl
  · rw [lineTurn_of_standsAt hrun hstands, hostLine, lineAccess_host, hanswer, HostProgram.afterAccess,
      s.host.nextPos_of_standsAt k _ hstands]
    rfl
  · rw [lineTurn_of_standsAt hrun hstands, hostLine, lineAccess_host, hanswer, HostProgram.afterAccess,
      s.host.nextPos_of_standsAt k _ hstands]

/-- A branch line with a value and a label: to the label or past the line (R95). -/
theorem HostProgram.afterBranch_eq {h : HostProgram} {n target : String} {v : Word} {p k : Nat} {l : Line}
    (taken : Word → Bool) (hread : h.LastRead n v) (hlabel : h.LabelAt target p) (hstands : h.StandsAt k l) :
    h.afterBranch taken n target = { h with pos := if taken v then p else k + 1 } := by
  rw [HostProgram.afterBranch, h.valueOf_of_lastRead n v hread, h.labelPos_of_labelAt target p hlabel,
    h.nextPos_of_standsAt k l hstands]
  change (if taken v then h.goto p else h.goto (k + 1)) = _
  split_ifs <;> rfl

/-- Settles O57: a branch line is `afterBranch`; behind the last line there is no next line. -/
theorem branchLinesTestTheLastValue : Obligations.BranchLinesTestTheLastValue := by
  refine fun s => ⟨fun k p n target m v hrun hread hlabel => ⟨fun hstands => ?_, fun hstands => ?_⟩,
    fun hlabels => lineTurn_of_end ?_⟩
  · rw [lineTurn_of_standsAt hrun hstands, hostLine, HostProgram.afterBranch_eq _ hread hlabel hstands]
    simp only [decide_eq_true_eq]
    rfl
  · rw [lineTurn_of_standsAt hrun hstands, hostLine, HostProgram.afterBranch_eq _ hread hlabel hstands]
    simp only [decide_eq_true_eq]
    rfl
  · rw [HostProgram.nextLine, HostProgram.nextPos, skipLabels_of_labels _ _ hlabels, List.length_drop,
      List.getElem?_eq_none_iff]
    omega

end Sys2Proof.Machine
end
